-- ==== Sys2Proof/Word.lean ====
section
/-! DEFINITION. The word types of the serial ROM protocol controller (spec 00_scope.md R8: bit 0 is the least significant
bit of every value, all values are unsigned). -/

namespace Sys2Proof

/-- A 4-bit value on the lines AD[3:0], "a 4-bit value transferred per LOAD ADDRESS pulse" (00_scope.md, glossary). -/
abbrev Nibble := BitVec 4

/-- A byte of ROM (R6), or the byte being shifted out (R19). -/
abbrev Byte := BitVec 8

/-- An offset inside a bank, `address[13:0]` (R11). -/
abbrev Offset := BitVec 14

/-- A bank number, `address[17:14]` (R11). -/
abbrev Bank := BitVec 4

/-- The 7-bit event word of R60, `L R P n3 n2 n1 n0`, laid in one byte whose bit 7 is 0.
DESIGN CHOICE (log 8), safe: a byte with bit 7 set is rejected by name. -/
abbrev EventByte := BitVec 8

end Sys2Proof
end

