-- ==== Sys2Proof/Config.lean ====
section
/-! DEFINITION. What an instance fixes for its life (spec 00_scope.md R5, R6, R7), as plain data, and the free values of what
the spec leaves open. -/

namespace Sys2Proof

/-- `ADDR_W`, the width of the register `address`: "any integer >= 20; default 32" (R7, R13, D1).
DESIGN CHOICE (log 3): the spec's default; the operations on addresses are written for every width. -/
abbrev addrW : Nat := 32

/-- An edge's polarity (R62). -/
inductive Polarity where
  | rising
  | falling
  deriving DecidableEq, Repr

/-- `TOP_WRAP` (R7, U3): what is output once `address` has grown to 2^18 or more. -/
inductive TopWrap where
  /-- Bank and offset are the slices of R11, whatever the higher bits are: the rules of the spec, its default. -/
  | slice
  /-- No device owns an address of 2^18 or more. -/
  | silent
  deriving DecidableEq, Repr

/-- The contents of the bank's byte table: the cells that differ from what an unlisted offset reads as, offsets strictly rising. -/
abbrev Memory := List Host.Cell

/-- The constants of one device instance (R5, R6, R7).
DESIGN CHOICE (log 1): held in the state as plain data that no step changes, so that a statement about every state is about
every `BANK_ID`, every `ROM` and every value of the open parameters. -/
structure Config where
  /-- `BANK_ID` (R5). -/
  bankId : Bank
  /-- `ROM` (R6). -/
  rom : Memory
  /-- `TOP_WRAP` (R7, U3). -/
  topWrap : TopWrap
  /-- `LOAD_POL` (R62). -/
  loadPol : Polarity
  /-- `READ_START_POL` (R62). -/
  readStartPol : Polarity
  /-- `DATA_LINE`: which of the four lines AD the device drives (R7, R129). -/
  dataLine : Fin 4
  deriving DecidableEq, Repr

/-- FREE VALUE (log 14): whether the LOAD event goes first when both latches are set (R85, D10: "both orders admitted"); of the
device's bank number, so that two devices need not choose alike, and of the draw. -/
opaque Config.loadGoesFirst : Bank → Nat → Bool

/-- FREE VALUE (log 5): `lineLevel` after `RESET` is asserted (R37: "unspecified"; U6). -/
opaque Config.freeLineLevel : Bank → Nat → Bool

/-- FREE VALUE (log 17): the level of a bus that nobody drives, at the host's n-th sample, where `BUS_FLOAT` is `unknown` (R126, D19). -/
opaque Config.freeBusLevel : Nat → Bool

end Sys2Proof
end

