-- ==== Sys2Proof/Syntax.lean ====
section
/-! DEFINITION. The commands (one constructor per row of spec/opcode_table.json, R76), the fields of an event word (R60), the
state bits that a READ edge is decoded with (R68), and the reasons a byte is no event word (R67). -/

namespace Sys2Proof

/-- Which polarity the READ line's event source is armed for (R21). -/
inductive ReadEdgeSel where
  /-- Armed for the start polarity. -/
  | awaitingStart
  /-- Armed for the clock polarity, the opposite one. -/
  | awaitingClock
  deriving DecidableEq, Repr

/-- The commands. The nibble `x` of the READ and no-edge rows holds the bits the table marks ignored (R64, R65, R67, R71): no
meaning reads it (DESIGN CHOICE, log 10, safe), and with it the encoder gives back every bit of the word. -/
inductive Instr where
  /-- LA: LOAD ADDRESS with the nibble `n` (R63, R95). -/
  | la (n : Nibble)
  /-- RD.DUMMY: the dummy or reset pulse (R107). -/
  | rdDummy (x : Nibble)
  /-- RD.START: the start pulse of a session (R108). -/
  | rdStart (x : Nibble)
  /-- RD.IGN_S: a start-polarity edge while the line is armed for the clock polarity (R82). -/
  | rdIgnS (x : Nibble)
  /-- RD.CLK: the bit-clock pulse (R109). -/
  | rdClk (x : Nibble)
  /-- RD.IGN_C: a clock-polarity edge while the line is armed for the start polarity (R82). -/
  | rdIgnC (x : Nibble)
  /-- IA: INDIRECT ADDRESS, edges on both lines at once, with the READ edge's polarity bit and the nibble (R66, R135). -/
  | ia (p : Bool) (n : Nibble)
  /-- NOEDGE: no control line has an edge (R67). -/
  | noedge (x : Nibble)
  deriving DecidableEq, Repr

/-- The fields of an event word (R60). -/
structure EventFields where
  /-- The LOAD line has a trigger edge. -/
  L : Bool
  /-- The READ line has an edge, of either polarity. -/
  R : Bool
  /-- The polarity of that READ edge: false = start polarity, true = clock polarity. -/
  P : Bool
  /-- The levels of AD[3:0]. -/
  n : Nibble
  deriving DecidableEq, Repr

/-- The three state bits a READ edge is decoded with (R68). -/
structure DecodeCtx where
  readEdgeSel : ReadEdgeSel
  transferActive : Bool
  addressValid : Bool
  deriving DecidableEq, Repr

/-- Why a byte is rejected as "malformed input, not as commands" (R67). -/
inductive DecodeError where
  /-- Bit 7 is set: the event word has seven bits (R60). -/
  | notSevenBits
  /-- `P` = 1 with `R` = 0: `001xxxx` and `101xxxx` "describe no possible instant" (R67). -/
  | polarityWithoutReadEdge
  deriving DecidableEq, Repr

end Sys2Proof
end

