-- ==== Sys2Proof/WellFormed.lean ====
section
/-! DEFINITION. The checks on event words, on the state bits of the decoder and on commands (spec 30_encoding.md R60, R68; 10_state.md
R31, R32). -/

namespace Sys2Proof

/-- "`P` must be 0 when `R` = 0" (R60). -/
def EventFields.wellFormed (f : EventFields) : Bool := !f.P || f.R

/-- The combinations of the three bits that a state can have: `AwaitingClock` exactly in a session (R32), a session only with a
valid address (R31). -/
def DecodeCtx.coherent (c : DecodeCtx) : Bool :=
  ((c.readEdgeSel == .awaitingClock) == c.transferActive) && (!c.transferActive || c.addressValid)

/-- The column `when` of spec/opcode_table.json, the condition of R68 under which an event word is this row's command. -/
def Instr.selectedIn (c : DecodeCtx) : Instr → Bool
  | .la _ => true
  | .rdDummy _ => c.readEdgeSel == .awaitingStart && !c.transferActive && !c.addressValid
  | .rdStart _ => c.readEdgeSel == .awaitingStart && !c.transferActive && c.addressValid
  | .rdIgnS _ => c.readEdgeSel == .awaitingClock
  | .rdClk _ => c.readEdgeSel == .awaitingClock && c.transferActive
  | .rdIgnC _ => c.readEdgeSel == .awaitingStart
  | .ia _ _ => true
  | .noedge _ => true

end Sys2Proof
end

