-- ==== Sys2Proof/Decode.lean ====
section
/-! DEFINITION. The decoder of event words, total on every byte, and after it the encoder (spec 30_encoding.md R60 to R68, R76). -/

namespace Sys2Proof

/-- The fields of R60: bits 6, 5, 4 and 3:0. -/
def fieldsOf (w : EventByte) : EventFields where
  L := w.getLsbD 6
  R := w.getLsbD 5
  P := w.getLsbD 4
  n := w.extractLsb' 0 4

/-- The Read-Data Handler's choice of branch (R87), on `transferActive` and then on `addressValid`. -/
def readBranch (c : DecodeCtx) (x : Nibble) : Instr :=
  if c.transferActive then .rdClk x else if c.addressValid then .rdStart x else .rdDummy x

/-- A READ edge of the armed polarity takes the handler's branch, the other one is RD.IGN (R68, R81, R82, R86).
DEDUCED (log 9): in the two combinations of bits that no run reaches, this is R86 with R87, not the table's `when`. -/
def decodeReadEdge (c : DecodeCtx) (clockPolarity : Bool) (x : Nibble) : Instr :=
  match c.readEdgeSel, clockPolarity with
  | .awaitingStart, false => readBranch c x
  | .awaitingStart, true => .rdIgnC x
  | .awaitingClock, false => .rdIgnS x
  | .awaitingClock, true => readBranch c x

/-- The command an event word is, by R63 to R68; a malformed word is rejected by name (R67). -/
def decode (c : DecodeCtx) (w : EventByte) : Except DecodeError Instr :=
  if w.getLsbD 7 then .error .notSevenBits
  else
    let f := fieldsOf w
    match f.L, f.R, f.P with
    | true, false, false => .ok (.la f.n)
    | false, true, p => .ok (decodeReadEdge c p f.n)
    | true, true, p => .ok (.ia p f.n)
    | false, false, false => .ok (.noedge f.n)
    | true, false, true => .error .polarityWithoutReadEdge
    | false, false, true => .error .polarityWithoutReadEdge

/-- The decoder's state bits right after reset (R37, R161): armed for the start polarity, no session, no valid address. -/
def DecodeCtx.afterReset : DecodeCtx := ⟨.awaitingStart, false, false⟩

/-- The byte of an event whose bits are `w`, `nbits` of them given and the others 0. -/
def wordOfBits (nbits w : Nat) : EventByte := BitVec.ofNat 8 (w % 2 ^ nbits)

/-- What the decoder reads from a row's bits as the first event after reset. Rows that share a word are told apart by the state
alone (R76), so of those the row that the reset state selects is read (log 9). -/
def decodeTableWord (nbits w : Nat) : Option Instr :=
  (decode .afterReset (wordOfBits nbits w)).toOption

/-- Bits 7:4 of the event word of a command: 0 and the fields `L R P` of R63 to R67. -/
def opcodeOf : Instr → BitVec 4
  | .la _ => 0b0100#4
  | .rdDummy _ => 0b0010#4
  | .rdStart _ => 0b0010#4
  | .rdIgnS _ => 0b0010#4
  | .rdClk _ => 0b0011#4
  | .rdIgnC _ => 0b0011#4
  | .ia p _ => if p then 0b0111#4 else 0b0110#4
  | .noedge _ => 0b0000#4

/-- Bits 3:0 of the event word of a command. -/
def nibbleOf : Instr → Nibble
  | .la n => n
  | .rdDummy x => x
  | .rdStart x => x
  | .rdIgnS x => x
  | .rdClk x => x
  | .rdIgnC x => x
  | .ia _ n => n
  | .noedge x => x

/-- The event word of a command (R63 to R67). -/
def encode (i : Instr) : EventByte := opcodeOf i ++ nibbleOf i

/-- The column `mask` of spec/opcode_table.json. -/
def tableMask : Instr → EventByte
  | .ia _ _ => 0x60#8
  | .la _ => 0x70#8
  | .rdDummy _ => 0x70#8
  | .rdStart _ => 0x70#8
  | .rdIgnS _ => 0x70#8
  | .rdClk _ => 0x70#8
  | .rdIgnC _ => 0x70#8
  | .noedge _ => 0x70#8

/-- The column `match` of spec/opcode_table.json. -/
def tableMatch : Instr → EventByte
  | .la _ => 0x40#8
  | .rdDummy _ => 0x20#8
  | .rdStart _ => 0x20#8
  | .rdIgnS _ => 0x20#8
  | .rdClk _ => 0x30#8
  | .rdIgnC _ => 0x30#8
  | .ia _ _ => 0x60#8
  | .noedge _ => 0x00#8

end Sys2Proof
end

