-- ==== Sys2Proof/Machine/State.lean ====
section
/-! DEFINITION. The state of one device instance (spec 10_state.md R10), what the outside world can do to it, the ways a step can
stop, and the state after reset (R37). -/

namespace Sys2Proof.Machine

/-- The edges of one instant on the two control lines, by polarity, with the levels of the four lines AD[3:0], true = high (R61, R80, R81;
log 22, log 23). -/
structure Edges where
  /-- The edge on `LOAD`, if there is one. -/
  load : Option Polarity
  /-- The edge on `READ`, if there is one. -/
  read : Option Polarity
  /-- The level of `AD[3]`. -/
  b3 : Bool
  /-- The level of `AD[2]`. -/
  b2 : Bool
  /-- The level of `AD[1]`. -/
  b1 : Bool
  /-- The level of `AD[0]`. -/
  b0 : Bool
  deriving DecidableEq, Repr

/-- What the outside world does at one instant. -/
inductive Input where
  /-- An event word whose handler runs before the next input: the atomic-event reading of R86. -/
  | event (w : EventByte)
  /-- The same at wire level: the edges by polarity (R62, R80, R81). -/
  | edges (e : Edges)
  /-- An event word whose edges are captured (R83) while no handler is dispatched before the next input: the host does not keep R167. -/
  | capture (w : EventByte)
  /-- The controller dispatches a pending handler (R84); the lines AD[3:0] hold `ad` at that moment (R90). -/
  | dispatch (ad : Nibble)
  /-- `RESET` is asserted (R160). The edges `w` of the same instant are no events. -/
  | reset (w : EventByte)
  deriving DecidableEq, Repr

/-- The state of one device instance. The thirteen elements of R10, the instance's constants, and two fields of the model's own. -/
structure State where
  /-- R11, R12, R13: the current byte address. -/
  address : BitVec addrW
  /-- R14: the bank decoded from the most recent completed load; informational. -/
  bankSelect : Bank
  /-- R15: which of the five nibbles is next expected. -/
  loadNibbleIndex : Fin 5
  /-- R16: the most recent LOAD ADDRESS completed a load. -/
  addressValid : Bool
  /-- R17: a session is in progress. -/
  transferActive : Bool
  /-- R18: the index of the bit that the next clock pulse puts on the line. -/
  bitCursor : Fin 8
  /-- R19: the byte being shifted out. -/
  currentByte : Byte
  /-- R20: inside a session, the bank of `address` is this device's. -/
  bankOwnsBus : Bool
  /-- R21: the polarity the READ line is armed for. -/
  readEdgeSel : ReadEdgeSel
  /-- R22: the data line's direction, true = driven output. -/
  lineDriven : Bool
  /-- R23: the level presented while driven, true = output-high. -/
  lineLevel : Bool
  /-- R24: the READ line's pending-event latch. -/
  readPending : Bool
  /-- R25: the LOAD line's pending-event latch. -/
  loadPending : Bool
  /-- R5, R6, R7: the instance's constants (log 1). -/
  config : Config
  /-- The model's own: what the outside world does next, oldest first (log 7). -/
  inputs : List Input
  /-- The model's own: how many free values have been used (log 15). -/
  draws : Nat
  deriving DecidableEq, Repr

/-- The machine's faults. The block itself has none: "The block raises no exception" (R140). -/
inductive Fault where
  /-- Two or more devices drive the data line: "a fault of the system model, not a value" (R126, D20). Raised by `System.apply` and
  `System.sample` in Machine/Bus.lean, never by `step`. Safe: the model stops where the wires would carry an undefined level. -/
  | busContention
  deriving DecidableEq, Repr

/-- Why a step gives no meaning. -/
inductive Refusal where
  /-- A command without a meaning yet, by the table's mnemonic. Raised by `exec`'s refused arms; none is left. Safe. -/
  | notModelled (mnemonic : String)
  /-- INDIRECT ADDRESS, "undefined/unhandled by design": refused (R135, R140, D11). Raised by `execIa`, and by `captureEdges` for the
  same event word. Safe: no effect is claimed. -/
  | indirectAddress
  /-- A byte that is no event word: rejected "as malformed input, not as commands" (R67). Raised by `applyInput`. Safe. -/
  | badEventWord (e : DecodeError)
  deriving DecidableEq, Repr

/-- The instance's constants in the reset state: no value is the spec's but the defaults of `TOP_WRAP` and `DATA_LINE` (R7).
DESIGN CHOICE (log 1, log 2), unsafe for a claim about a run from `State.reset` alone. -/
def configAtReset : Config where
  bankId := 0
  rom := []
  topWrap := .slice
  loadPol := .rising
  readStartPol := .rising
  dataLine := 3

/-- The state after reset (R37, R161). `lineLevel` is unspecified there: DESIGN CHOICE false (log 4). -/
def State.reset : State where
  address := 0
  bankSelect := 0
  loadNibbleIndex := 0
  addressValid := false
  transferActive := false
  bitCursor := 0
  currentByte := 0
  bankOwnsBus := false
  readEdgeSel := .awaitingStart
  lineDriven := false
  lineLevel := false
  readPending := false
  loadPending := false
  config := configAtReset
  inputs := []
  draws := 0

end Sys2Proof.Machine
end

