-- ==== Sys2Proof/Machine/Operands.lean ====
section
/-! DEFINITION. The operands: the nibble, its place in the address, the slices of an address, the assembled 20-bit value, and the
state bits the decoder takes (spec 10_state.md R11, 20_memory.md R42, R45, R46, 30_encoding.md R68 to R71). The operations on addresses
are written for every register width (R13). -/

namespace Sys2Proof.Machine

/-- The state bits a READ edge is decoded with (R68). -/
def decodeCtx (s : State) : DecodeCtx := ⟨s.readEdgeSel, s.transferActive, s.addressValid⟩

/-- `n = b0*1 + b1*2 + b2*4 + b3*8`, a high level being 1 (R46, R69). -/
def nibbleOfLevels (b3 b2 b1 b0 : Bool) : Nibble :=
  BitVec.ofBool b3 ++ BitVec.ofBool b2 ++ BitVec.ofBool b1 ++ BitVec.ofBool b0

/-- `bank = address[17:14]` (R11). -/
def bankOf {w : Nat} (a : BitVec w) : Bank := a.extractLsb' 14 4

/-- `offset = address[13:0]` (R11). -/
def offsetOf {w : Nat} (a : BitVec w) : Offset := a.extractLsb' 0 14

/-- Step 5 of R95: `address | (zext(n) << (4 * loadNibbleIndex))`. -/
def insertNibble {w : Nat} (a : BitVec w) (n : Nibble) (k : Nat) : BitVec w :=
  a ||| (n.setWidth w <<< (4 * k))

/-- Step 7 of R95: `address & 0x3FFFF`, "keep the low 18 bits". -/
def maskTo18 {w : Nat} (a : BitVec w) : BitVec w := a &&& BitVec.ofNat w 0x3FFFF

/-- Step 4 of R109: one more, modulo 2^ADDR_W, "NOT masked to 18 bits". -/
def nextAddress {w : Nat} (a : BitVec w) : BitVec w := a + BitVec.ofNat w 1

/-- The 20-bit value of five nibbles, the least significant first (R45, R70). -/
def assemble20 (n0 n1 n2 n3 n4 : Nibble) : BitVec 20 :=
  insertNibble (insertNibble (insertNibble (insertNibble (insertNibble 0 n0 0) n1 1) n2 2) n3 3) n4 4

end Sys2Proof.Machine
end

