-- ==== Sys2Proof/Machine/Flags.lean ====
section
/-! DEFINITION. What the flags are computed from (spec 10_state.md R16, R20, R34; 93_implementation_defined.md U3), and the bit that a
clock pulse selects (R109 step 2). The block has three flags, `addressValid`, `transferActive` and `bankOwnsBus`, and no command
writes one "as a side effect" (R28). -/

namespace Sys2Proof.Machine

/-- Whether the device owns an address: the bank compare of `Fetch()` (R106); with `TOP_WRAP` = `silent` no device owns an address of
2^18 or more (U3, log 16). -/
def ownsAddress {w : Nat} (c : Config) (a : BitVec w) : Bool :=
  match c.topWrap with
  | .slice => bankOf a == c.bankId
  | .silent => bankOf a == c.bankId && decide (a.toNat < 0x40000)

/-- The test of R95 step 7, on the incremented count: this was the fifth nibble. -/
def completesLoad (k : Fin 5) : Bool := decide (k.val + 1 > 4)

/-- The test of R109 step 4, on the incremented count: that was bit 7. -/
def completesByte (k : Fin 8) : Bool := decide (k.val + 1 > 7)

/-- `currentByte[bitCursor]` (R109 step 2): the bit that goes out, least significant first (R47). -/
def selectedBit (s : State) : Bool := s.currentByte.getLsbD s.bitCursor.val

end Sys2Proof.Machine
end

