-- ==== Sys2Proof/Machine/Ops.lean ====
section
/-! DEFINITION. The named operations: the ROM, the data line (spec 43_bus_arbiter.md R120, R121), the event sources (40_command_decoder.md
R83, R84, R88), `Fetch()` (R106), the accumulation of a nibble (R95) and `RESET` (R160). The block raises no exception (R140), so no
operation takes one; dispatch, which stands in for it (R144), is in EdgeCapture.lean. -/

namespace Sys2Proof

/-- What a ROM offset that no cell lists reads as. DESIGN CHOICE (log 2), unsafe for a claim about `State.reset`'s own ROM: the spec
leaves the contents to the platform (R4, R6). -/
def Memory.unlisted : Byte := 0x00

/-- The byte at an offset: `ROM(o)`, total and without side effect (R6, R8, R51). -/
def Memory.readAt (m : Memory) (o : Nat) : Byte :=
  match m with
  | [] => Memory.unlisted
  | (a, b) :: rest => if a = o then b else Memory.readAt rest o

/-- `ROM(offset)` (R6). -/
def Memory.read (m : Memory) (o : Offset) : Byte := m.readAt o.toNat

/-- The canonical form from a bound on: offsets strictly rising from `lo`, below 2^14, no cell equal to what an unlisted offset reads as. -/
def Memory.wfFrom (lo : Nat) : Memory → Bool
  | [] => true
  | (a, b) :: rest => decide (lo ≤ a) && decide (a < 0x4000) && !(b == Memory.unlisted) && Memory.wfFrom (a + 1) rest

/-- The canonical form of a ROM's contents. -/
def Memory.wf (m : Memory) : Bool := m.wfFrom 0

/-- One more byte of ROM contents, kept in canonical form. The PLATFORM's operation, before the first event (R164): the block has no
write primitive (R8, R55). -/
def Memory.burnAt (m : Memory) (o : Nat) (b : Byte) : Memory :=
  match m with
  | [] => if b = Memory.unlisted then [] else [(o, b)]
  | (a, v) :: rest =>
    if o < a then (if b = Memory.unlisted then (a, v) :: rest else (o, b) :: (a, v) :: rest)
    else if o = a then (if b = Memory.unlisted then rest else (o, b) :: rest)
    else (a, v) :: Memory.burnAt rest o b

/-- One more byte of ROM contents, at a 14-bit offset. -/
def Memory.burn (m : Memory) (o : Offset) (b : Byte) : Memory := m.burnAt o.toNat b

end Sys2Proof

namespace Sys2Proof.Machine

/-- The output of a device on the data line (R120): released (`Z`) or driven to a level. -/
inductive DataOut where
  | released
  | driven (level : Bool)
  deriving DecidableEq, Repr

/-- `DATA`: `Z` if not `lineDriven`, else `lineLevel` (R120). -/
def dataOut (s : State) : DataOut := if s.lineDriven then .driven s.lineLevel else .released

/-- What the device puts on the line `AD[i]`: `DATA` on the line `DATA_LINE` (R29, R129); "the other three address/data lines are never
driven by it" (R136). -/
def adOut (s : State) (i : Fin 4) : DataOut := if i = s.config.dataLine then dataOut s else .released

/-- The port `rom_offset`: the offset presented to the bank's byte table (R29). -/
def romOffset (s : State) : Offset := offsetOf s.address

/-- `release()` (R121). -/
def release (s : State) : State := { s with lineDriven := false }

/-- The switch to driven output (R121). -/
def switchToDriven (s : State) : State := { s with lineDriven := true }

/-- `driveHigh()` (R121). -/
def driveHigh (s : State) : State := { s with lineLevel := true }

/-- `driveLow()` (R121). -/
def driveLow (s : State) : State := { s with lineLevel := false }

/-- `sampleInputNibble()` (R121, R95 step 3): no effect on the state; the value is the one the host holds on AD[3:0] (R90, D25, log 22). -/
def sampleInputNibble (ad : Nibble) (_s : State) : Nibble := ad

/-- Arm the READ line for its start polarity (R88). -/
def armForStart (s : State) : State := { s with readEdgeSel := .awaitingStart }

/-- Arm the READ line for its clock polarity (R88). -/
def armForClock (s : State) : State := { s with readEdgeSel := .awaitingClock }

/-- A trigger edge on `LOAD` sets its latch; a second one merges (R83). -/
def latchLoad (s : State) : State := { s with loadPending := true }

/-- A `READ` edge of the armed polarity sets its latch; a second one merges (R83). -/
def latchRead (s : State) : State := { s with readPending := true }

/-- Dispatch clears the LOAD latch (R84). -/
def clearLoadPending (s : State) : State := { s with loadPending := false }

/-- Dispatch, or step 2 of LOAD ADDRESS, clears the READ latch (R84, R95). -/
def clearReadPending (s : State) : State := { s with readPending := false }

/-- A free value has been used (log 15). -/
def countDraw (s : State) : State := { s with draws := s.draws + 1 }

/-- Step 1 of R95: the session is over and the line is released, "unconditionally and first" (R123). -/
def cancelSession (s : State) : State := release { s with transferActive := false, bankOwnsBus := false }

/-- `Fetch()` (R106): resolve the bank of `address` and load `currentByte`; the sentinel 0xFF where the bank is not this device's. -/
def fetch (s : State) : State :=
  if ownsAddress s.config s.address then
    { s with bankOwnsBus := true, currentByte := s.config.rom.read (offsetOf s.address) }
  else { s with bankOwnsBus := false, currentByte := 0xFF }

/-- Steps 4 and 5 of R95: the first nibble of a load starts from zero. -/
def accumulated (n : Nibble) (s : State) : BitVec addrW :=
  insertNibble (if s.loadNibbleIndex = 0 then 0 else s.address) n s.loadNibbleIndex.val

/-- Steps 4 to 7 of R95. -/
def accumulate (n : Nibble) (s : State) : State :=
  let a := accumulated n s
  if completesLoad s.loadNibbleIndex then
    { s with addressValid := true, loadNibbleIndex := 0, bankSelect := bankOf a, address := maskTo18 a }
  else { s with addressValid := false, loadNibbleIndex := s.loadNibbleIndex + 1, address := a }

/-- Step 1 of R109: the line's direction follows `bankOwnsBus` (R122). -/
def followOwnership (s : State) : State :=
  if s.bankOwnsBus && !s.lineDriven then switchToDriven s
  else if !s.bankOwnsBus && s.lineDriven then release s
  else s

/-- Step 2 of R109: the owner puts the selected bit on the line. -/
def presentBit (s : State) : State :=
  if s.bankOwnsBus then (if selectedBit s then driveHigh s else driveLow s) else s

/-- Steps 3 and 4 of R109: count the bit; after bit 7 the address advances, unmasked, and the next byte is fetched. -/
def advanceCursor (s : State) : State :=
  if completesByte s.bitCursor then fetch { s with bitCursor := 0, address := nextAddress s.address }
  else { s with bitCursor := s.bitCursor + 1 }

/-- `RESET` (R160, R37): every element at its reset value, pending events discarded; `lineLevel`, which R37 leaves unspecified, is a
free value (log 5). The instance's constants and what the outside world does next are no elements of R10 and stay. -/
def resetDevice (s : State) : State :=
  { State.reset with
    lineLevel := Config.freeLineLevel s.config.bankId s.draws
    config := s.config
    inputs := s.inputs
    draws := s.draws + 1 }

end Sys2Proof.Machine
end

