-- ==== Sys2Proof/Machine/Ignored.lean ====
section
/-! DEFINITION. What is not an event: READ edges of the polarity that is not armed (spec 40_command_decoder.md R82) and an instant without
an edge (30_encoding.md R67). -/

namespace Sys2Proof.Machine

/-- RD.IGN_S (R82): "no handler runs, no state changes". -/
def execRdIgnS (_x : Nibble) (s : State) : Host.Outcome State Fault Refusal := .next s

/-- RD.IGN_C (R82): "no handler runs, no state changes". -/
def execRdIgnC (_x : Nibble) (s : State) : Host.Outcome State Fault Refusal := .next s

/-- NOEDGE (R67): "it is not an event and changes nothing". -/
def execNoedge (_x : Nibble) (s : State) : Host.Outcome State Fault Refusal := .next s

end Sys2Proof.Machine
end

