-- ==== Sys2Proof/Machine/LoadAddress.lean ====
section
/-! DEFINITION. LOAD ADDRESS (spec 41_load_address.md). -/

namespace Sys2Proof.Machine

/-- LA (R95): the seven steps, "unconditionally, on every invocation". -/
def execLa (n : Nibble) (s : State) : Host.Outcome State Fault Refusal :=
  let s := cancelSession s
  let s := clearReadPending (armForStart s)
  let n := sampleInputNibble n s
  .next (accumulate n s)

end Sys2Proof.Machine
end

