-- ==== Sys2Proof/Machine/ReadData.lean ====
section
/-! DEFINITION. The three behaviours of a READ DATA event (spec 42_read_data.md). Each is the handler's branch as its rule states it; which
branch an edge takes is the decoder's choice (R68, R87; DEDUCED, log 11). The handler samples no input line (R105). -/

namespace Sys2Proof.Machine

/-- RD.DUMMY (R107): "a dummy/reset pulse". -/
def execRdDummy (_x : Nibble) (s : State) : Host.Outcome State Fault Refusal :=
  .next { s with address := 0, loadNibbleIndex := 0 }

/-- RD.START (R108): the session starts at bit 0 of the addressed byte; the line is not touched. -/
def execRdStart (_x : Nibble) (s : State) : Host.Outcome State Fault Refusal :=
  let s := fetch { s with transferActive := true }
  .next (armForClock { s with bitCursor := 0 })

/-- RD.CLK (R109): the line follows the ownership and the bit of the previous event; the fetch at the end of a byte is for the next pulse. -/
def execRdClk (_x : Nibble) (s : State) : Host.Outcome State Fault Refusal :=
  .next (advanceCursor (presentBit (followOwnership s)))

end Sys2Proof.Machine
end

