-- ==== Sys2Proof/Machine/Unsupported.lean ====
section
/-! DEFINITION. The command of the protocol that the block does not implement (spec 44_unsupported.md). -/

namespace Sys2Proof.Machine

/-- IA (R135): INDIRECT ADDRESS, "undefined/unhandled by design"; "Model: *refuse*" (log 12). -/
def execIa (_p : Bool) (_n : Nibble) (_s : State) : Host.Outcome State Fault Refusal := .refused .indirectAddress

end Sys2Proof.Machine
end

