-- ==== Sys2Proof/Machine/Dispatch.lean ====
section
/-! DEFINITION. One arm per command: each calls its meaning. -/

namespace Sys2Proof.Machine

def exec (i : Instr) (s : State) : Host.Outcome State Fault Refusal :=
  match i with
  | .la n => Sys2Proof.Machine.execLa n s
  | .rdDummy x => Sys2Proof.Machine.execRdDummy x s
  | .rdStart x => Sys2Proof.Machine.execRdStart x s
  | .rdIgnS x => Sys2Proof.Machine.execRdIgnS x s
  | .rdClk x => Sys2Proof.Machine.execRdClk x s
  | .rdIgnC x => Sys2Proof.Machine.execRdIgnC x s
  | .ia p n => Sys2Proof.Machine.execIa p n s
  | .noedge x => Sys2Proof.Machine.execNoedge x s

end Sys2Proof.Machine
end

