-- ==== Sys2Proof/Machine/EdgeCapture.lean ====
section
/-! DEFINITION. The event sources and the dispatch of their latches (spec 40_command_decoder.md R80 to R87, R90), and the effect of one
input (log 13, log 19). -/

namespace Sys2Proof.Machine

/-- The event word of an instant (R60) from the edges' polarities and the line levels: only a LOAD edge of polarity `LOAD_POL` is an event
(R80); a READ edge's `P` says whether it is of the start polarity `READ_START_POL` or of the other one, the clock polarity (R62); bits 3:0
are the nibble on AD[3:0] (R46, R69). DEDUCED (log 23). -/
def eventWordOf (c : Config) (e : Edges) : EventByte :=
  let l := decide (e.load = some c.loadPol)
  let r := e.read.isSome
  let p := r && decide (e.read ≠ some c.readStartPol)
  0#1 ++ BitVec.ofBool l ++ BitVec.ofBool r ++ BitVec.ofBool p ++ nibbleOfLevels e.b3 e.b2 e.b1 e.b0

/-- Whether an event is latched and not yet dispatched (R24, R25). -/
def somethingPending (s : State) : Bool := s.loadPending || s.readPending

/-- The capture of an instant's edges (R83), for the command they decode to at the moment of the edge: LOAD's trigger edge sets its latch, a
READ edge of the armed polarity sets its latch, any other edge changes nothing (R80, R82). Both lines at once are IA (R135). -/
def captureEdges (i : Instr) (s : State) : Host.Outcome State Fault Refusal :=
  match i with
  | .la _ => .next (latchLoad s)
  | .rdDummy _ => .next (latchRead s)
  | .rdStart _ => .next (latchRead s)
  | .rdClk _ => .next (latchRead s)
  | .rdIgnS _ => .next s
  | .rdIgnC _ => .next s
  | .noedge _ => .next s
  | .ia _ _ => .refused .indirectAddress

/-- Dispatch of the LOAD latch (R84): cleared, then the Address-Load Handler, which samples AD[3:0] now (R90). -/
def dispatchLoad (ad : Nibble) (s : State) : Host.Outcome State Fault Refusal :=
  exec (.la ad) (clearLoadPending s)

/-- Dispatch of the READ latch (R84): cleared, then the Read-Data Handler, which branches on the state (R87) and not on the edge's
polarity (R83). -/
def dispatchRead (ad : Nibble) (s : State) : Host.Outcome State Fault Refusal :=
  exec (readBranch (decodeCtx s) ad) (clearReadPending s)

/-- The dispatch of one pending event (R84). With both latches set the order is open (R85, D10): a free value says which handler goes
first (log 14). With none set nothing happens. -/
def dispatch (ad : Nibble) (s : State) : Host.Outcome State Fault Refusal :=
  match s.loadPending, s.readPending with
  | false, false => .next s
  | true, false => dispatchLoad ad s
  | false, true => dispatchRead ad s
  | true, true =>
    if Config.loadGoesFirst s.config.bankId s.draws then dispatchLoad ad (countDraw s)
    else dispatchRead ad (countDraw s)

/-- Capture without dispatch; a malformed event word is rejected (R67). -/
def captureWord (w : EventByte) (s : State) : Host.Outcome State Fault Refusal :=
  match decode (decodeCtx s) w with
  | .error e => .refused (.badEventWord e)
  | .ok i => captureEdges i s

/-- One event word whose handler runs before the next input. With no event pending this is the step function of R86: the command the word
decodes to runs as one atomic step. With an event pending (the host has broken R167) the edge is captured and one pending handler is
dispatched (R83, R84, R85; log 19). -/
def applyEvent (w : EventByte) (s : State) : Host.Outcome State Fault Refusal :=
  match decode (decodeCtx s) w with
  | .error e => .refused (.badEventWord e)
  | .ok i =>
    if somethingPending s then
      match captureEdges i s with
      | .next t => dispatch (nibbleOf i) t
      | .fault r => .fault r
      | .refused r => .refused r
    else exec i s

/-- The effect of one input. -/
def applyInput (i : Input) (s : State) : Host.Outcome State Fault Refusal :=
  match i with
  | .event w => applyEvent w s
  | .edges e => applyEvent (eventWordOf s.config e) s
  | .capture w => captureWord w s
  | .dispatch ad => dispatch ad s
  | .reset _ => .next (resetDevice s)

/-- The state with its oldest input taken: what stands in for moving past an instruction (log 7). -/
def takeInput (rest : List Input) (s : State) : State := { s with inputs := rest }

/-- One step: the oldest input takes effect; with none the device "is idle with all state held" (R151). -/
def runStep (s : State) : Host.Outcome State Fault Refusal :=
  match s.inputs with
  | [] => .next s
  | i :: rest => applyInput i (takeInput rest s)

/-- The next input is the event word whose bits are `w`: the host produces that edge now, with no event pending (R167), so that the next
step runs the word's command (log 7). -/
def withEventWord (s : State) (nbits w : Nat) : State :=
  { s with
    loadPending := false
    readPending := false
    inputs := .event (wordOfBits nbits w) :: s.inputs }

end Sys2Proof.Machine
end

