-- ==== Sys2Proof/Machine/Step.lean ====
section
/-! DEFINITION. The step, and the placing of one event word before it. -/

namespace Sys2Proof.Machine

/-- One step of the device. -/
def step (s : State) : Host.Outcome State Fault Refusal := runStep s

/-- The state in which the event word with bits `w` is what the next step takes (log 7). -/
def State.withFetchWord (s : State) (nbits w : Nat) : State := withEventWord s nbits w

end Sys2Proof.Machine
end

