-- ==== Sys2Proof/Machine/Trace.lean ====
section
/-! DEFINITION. The trace notation of the spec (30_encoding.md R74) as event words, and a trace run from a state. -/

namespace Sys2Proof.Machine

/-- `LA n`: event word `0x40 + n` (R74). -/
def wordLA (n : Nibble) : EventByte := 0x4#4 ++ n

/-- `RS`: event word `0x20` (R74). -/
def wordRS : EventByte := 0x20

/-- `RC`: event word `0x30` (R74). -/
def wordRC : EventByte := 0x30

/-- `IA n`: event word `0x60 + n` with `P` = 0, `0x70 + n` with `P` = 1 (R74). -/
def wordIA (p : Bool) (n : Nibble) : EventByte := (if p then 0x7#4 else 0x6#4) ++ n

/-- `LOADADDR a`: five `LA`, the least significant nibble first (R74). -/
def loadAddr (a : BitVec 20) : List EventByte :=
  [wordLA (a.extractLsb' 0 4), wordLA (a.extractLsb' 4 4), wordLA (a.extractLsb' 8 4), wordLA (a.extractLsb' 12 4),
    wordLA (a.extractLsb' 16 4)]

/-- `RC` `k` times; `CLK8` is eight (R74). -/
def clocks (k : Nat) : List EventByte := List.replicate k wordRC

/-- The number that nibbles make, the least significant first (R45). -/
def valueOfNibbles (ns : List Nibble) : Nat :=
  match ns with
  | [] => 0
  | n :: rest => n.toNat + 16 * valueOfNibbles rest

/-- A list of inputs, applied in order, stopping at the first fault or refusal. -/
def runInputs (is : List Input) (s : State) : Host.Outcome State Fault Refusal :=
  match is with
  | [] => .next s
  | i :: rest =>
    match applyInput i s with
    | .next t => runInputs rest t
    | .fault r => .fault r
    | .refused r => .refused r

/-- A list of event words, each with its handler run before the next (R86). -/
def runWords (ws : List EventByte) (s : State) : Host.Outcome State Fault Refusal := runInputs (ws.map .event) s

end Sys2Proof.Machine
end

