-- ==== Sys2Proof/Machine/Bus.lean ====
section
/-! DEFINITION. Several devices on the multi-drop bus (spec 43_bus_arbiter.md R125 to R130; log 17, log 24, log 25). -/

namespace Sys2Proof.Machine

/-- `BUS_FLOAT` (R7, D19): what the host reads when no device drives. -/
inductive BusFloat where
  | zero
  | one
  | unknown
  deriving DecidableEq, Repr

/-- `N_DEV` devices that share `LOAD`, `READ` and `AD[3:0]`, their `DATA` outputs wired together (R125).
DESIGN CHOICE (log 24): each device has a `Config` of its own, whole, where R125 names `BANK_ID` and `ROM` alone. -/
structure System where
  devices : List State
  busFloat : BusFloat
  /-- The model's own: how many free levels of a floating bus have been used. -/
  samples : Nat
  deriving DecidableEq, Repr

/-- The resolution of all outputs (R126). -/
inductive BusValue where
  | floating
  | level (b : Bool)
  | contention
  deriving DecidableEq, Repr

/-- The levels that are driven: the outputs other than `Z`. -/
def drivenLevels (outs : List DataOut) : List Bool :=
  outs.filterMap fun o =>
    match o with
    | .released => none
    | .driven b => some b

/-- `BUS` (R126): floating if every output is `Z`, the one driven level, contention if two or more are driven. -/
def resolve (outs : List DataOut) : BusValue :=
  match drivenLevels outs with
  | [] => .floating
  | [b] => .level b
  | _ :: _ :: _ => .contention

/-- The bus of a system: the outputs `DATA` of all its devices resolved as one wire (R125, R126).
DESIGN CHOICE (log 24): whatever `DATA_LINE` each device has; unsafe for devices that differ in it. -/
def System.bus (y : System) : BusValue := resolve (y.devices.map dataOut)

/-- The same input applied to every device (R125); the first that stops, stops the system (log 17).
DESIGN CHOICE (log 24): `.edges` reach each device as edges, which it reads by its own `LOAD_POL` and `READ_START_POL`.
DESIGN CHOICE (log 25): `.reset` and `.dispatch` reach all devices at once too, where R125 speaks of events and names `LOAD`, `READ` and
`AD[3:0]` alone as shared; unsafe for a bus on which one device is reset, or runs a pending handler, while the others do not. -/
def applyToAll (i : Input) (ds : List State) : Host.Outcome (List State) Fault Refusal :=
  match ds with
  | [] => .next []
  | d :: rest =>
    match applyInput i d with
    | .fault r => .fault r
    | .refused r => .refused r
    | .next d' =>
      match applyToAll i rest with
      | .next rest' => .next (d' :: rest')
      | .fault r => .fault r
      | .refused r => .refused r

/-- One step of the system: the input reaches every device; two drivers at once are a fault of the system (R126, D20). -/
def System.apply (i : Input) (y : System) : Host.Outcome System Fault Refusal :=
  match applyToAll i y.devices with
  | .fault r => .fault r
  | .refused r => .refused r
  | .next ds => if resolve (ds.map dataOut) = .contention then .fault .busContention else .next { y with devices := ds }

/-- A list of event words on the system. -/
def System.runWords (ws : List EventByte) (y : System) : Host.Outcome System Fault Refusal :=
  match ws with
  | [] => .next y
  | w :: rest =>
    match System.apply (.event w) y with
    | .next y' => System.runWords rest y'
    | .fault r => .fault r
    | .refused r => .refused r

/-- What the host reads on the data line (R126): `BUS_FLOAT` where nobody drives, a free level for `unknown` (D19). -/
def System.sample (y : System) : Host.Outcome (Bool × System) Fault Refusal :=
  match System.bus y with
  | .level b => .next (b, y)
  | .contention => .fault .busContention
  | .floating =>
    match y.busFloat with
    | .zero => .next (false, y)
    | .one => .next (true, y)
    | .unknown => .next (Config.freeBusLevel y.samples, { y with samples := y.samples + 1 })

end Sys2Proof.Machine
end

