-- ==== Sys2Proof/Safety.lean ====
section
/-! DEFINITION. What claims are stated in: the invariants of every reachable state (spec 10_state.md R30 to R36), the host's obligations
(70_reset_and_hazards.md R167, R168), the protocol phases (40_command_decoder.md R89), and the invariant of the bus (43_bus_arbiter.md
R127). -/

namespace Sys2Proof.Machine

/-- R30: `addressValid` implies `loadNibbleIndex == 0`. -/
abbrev ValidAtIndexZero (s : State) : Prop := s.addressValid = true → s.loadNibbleIndex = 0

/-- R31: `transferActive` implies `addressValid`. -/
abbrev SessionHasAddress (s : State) : Prop := s.transferActive = true → s.addressValid = true

/-- R32: `readEdgeSel == AwaitingClock` if and only if `transferActive`. -/
abbrev ClockArmedExactlyInSession (s : State) : Prop := s.readEdgeSel = .awaitingClock ↔ s.transferActive = true

/-- R33: outside a session the flag is false and the line is released. -/
abbrev ReleasedOutsideSession (s : State) : Prop :=
  (s.bankOwnsBus = true → s.transferActive = true) ∧ (s.lineDriven = true → s.transferActive = true)

/-- R34: inside a session the flag and the byte are what `Fetch()` gives for `address`. -/
abbrev OwnershipTracksAddress (s : State) : Prop :=
  s.transferActive = true →
    s.bankOwnsBus = ownsAddress s.config s.address ∧
      s.currentByte = if s.bankOwnsBus = true then s.config.rom.read (offsetOf s.address) else 0xFF

/-- R35: outside a session `address < 2^18`, and `address < 2^(4*loadNibbleIndex)` while a load is in progress. -/
abbrev AddressBounded (s : State) : Prop :=
  s.transferActive = false →
    s.address.toNat < 2 ^ 18 ∧ (s.loadNibbleIndex ≠ 0 → s.address.toNat < 2 ^ (4 * s.loadNibbleIndex.val))

/-- R36: inside a session the line's direction differs from the ownership flag at a byte boundary only. -/
abbrev LineFollowsInsideByte (s : State) : Prop :=
  s.transferActive = true → s.bitCursor ≠ 0 → s.lineDriven = s.bankOwnsBus

/-- The invariants R30 to R36, and the ROM's canonical form. -/
abbrev StateInv (s : State) : Prop :=
  ValidAtIndexZero s ∧ SessionHasAddress s ∧ ClockArmedExactlyInSession s ∧ ReleasedOutsideSession s ∧
    OwnershipTracksAddress s ∧ AddressBounded s ∧ LineFollowsInsideByte s ∧ s.config.rom.wf = true

/-- No event is latched (R26). -/
abbrev LatchesClear (s : State) : Prop := s.loadPending = false ∧ s.readPending = false

/-- A byte is an event word that the host's obligations allow: well formed (R60) and not edges on both lines (R168). -/
def allowedWord (w : EventByte) : Bool :=
  !w.getLsbD 7 && (fieldsOf w).wellFormed && !((fieldsOf w).L && (fieldsOf w).R)

/-- An input of a host that keeps R167 and R168: one event at a time, never both lines, or `RESET`. -/
def obeysHostRules (c : Config) : Input → Bool
  | .event w => allowedWord w
  | .edges e => allowedWord (eventWordOf c e)
  | .reset _ => true
  | .capture _ => false
  | .dispatch _ => false

/-- The four phases of R89. -/
inductive Phase where
  | idle
  | loading
  | armed
  | session
  deriving DecidableEq, Repr

/-- The phase of a state, by the predicates of R89. -/
def phaseOf (s : State) : Phase :=
  if s.transferActive then .session
  else if s.addressValid then .armed
  else if s.loadNibbleIndex = 0 then .idle
  else .loading

/-- What all devices on a bus hold alike (R127), their latches among it. -/
abbrev SameProtocolState (s t : State) : Prop :=
  s.address = t.address ∧ s.loadNibbleIndex = t.loadNibbleIndex ∧ s.addressValid = t.addressValid ∧
    s.transferActive = t.transferActive ∧ s.bitCursor = t.bitCursor ∧ s.bankSelect = t.bankSelect ∧
    s.readEdgeSel = t.readEdgeSel

/-- Two devices do not both own the bus and do not both drive the line (R127). -/
abbrev NotBoth (s t : State) : Prop :=
  ¬(s.bankOwnsBus = true ∧ t.bankOwnsBus = true) ∧ ¬(s.lineDriven = true ∧ t.lineDriven = true)

/-- The invariant of a bus whose devices have pairwise different `BANK_ID` (R127, R173). -/
abbrev BusInv (y : System) : Prop :=
  (∀ d ∈ y.devices, StateInv d ∧ LatchesClear d) ∧
    y.devices.Pairwise (fun s t => s.config.bankId ≠ t.config.bankId) ∧
    y.devices.Pairwise SameProtocolState ∧ y.devices.Pairwise NotBoth

/-- A run is safe when it ends in a state: no fault, no refusal (R140). -/
def endsInState {σ : Type} (o : Host.Outcome σ Fault Refusal) : Bool :=
  match o with
  | .next _ => true
  | .fault _ => false
  | .refused _ => false

end Sys2Proof.Machine
end

