-- ==== Sys2Proof/Certificates/Slice0/Obligations.lean ====
section
/-! DEFINITION. The statements for the provers. Each docstring names the rule of spec/ that the statement formalises, or the model's choice
(log n) it rests on. -/

open Sys2Proof Sys2Proof.Machine

/-! ### Reset -/

/-- 10_state.md section 7: the values the table gives, the spec's decisions D6 to D8 among them; nothing is said of `lineLevel`, which
the table leaves unspecified (log 4). -/
def Obligations.ResetStateHoldsSpecValues : Prop :=
  State.reset.address = 0 ∧ State.reset.bankSelect = 0 ∧ State.reset.loadNibbleIndex = 0 ∧
    State.reset.addressValid = false ∧ State.reset.transferActive = false ∧ State.reset.bitCursor = 0 ∧
    State.reset.currentByte = 0 ∧ State.reset.bankOwnsBus = false ∧ State.reset.readEdgeSel = .awaitingStart ∧
    State.reset.lineDriven = false ∧ dataOut State.reset = .released ∧ State.reset.readPending = false ∧
    State.reset.loadPending = false ∧ phaseOf State.reset = .idle

/-- 70_reset_and_hazards.md section 1, D8: `RESET` at any time, whatever the edges of the same instant, gives the reset values and discards
pending events; `lineLevel` has SOME value (log 5); the constants of the instance and the inputs to come stay (log 1, log 7). -/
def Obligations.ResetInputGivesResetState : Prop :=
  ∀ (s : State) (w : EventByte), ∃ level : Bool,
    applyInput (.reset w) s = .next { State.reset with
      lineLevel := level
      config := s.config
      inputs := s.inputs
      draws := s.draws + 1 }

/-! ### Encoding -/

/-- 30_encoding.md sections 2 and 3: the words of the table, written out bit by bit, in the states that select their rows. -/
def Obligations.TableWordsDecode : Prop :=
  decode ⟨.awaitingStart, false, false⟩ 0b01001010#8 = .ok (.la 0xA) ∧
    decode ⟨.awaitingClock, true, true⟩ 0b01000011#8 = .ok (.la 0x3) ∧
    decode ⟨.awaitingStart, false, false⟩ 0b00100000#8 = .ok (.rdDummy 0) ∧
    decode ⟨.awaitingStart, false, true⟩ 0b00100000#8 = .ok (.rdStart 0) ∧
    decode ⟨.awaitingClock, true, true⟩ 0b00100000#8 = .ok (.rdIgnS 0) ∧
    decode ⟨.awaitingClock, true, true⟩ 0b00110000#8 = .ok (.rdClk 0) ∧
    decode ⟨.awaitingStart, false, true⟩ 0b00110000#8 = .ok (.rdIgnC 0) ∧
    decode ⟨.awaitingStart, false, false⟩ 0b01100011#8 = .ok (.ia false 0x3) ∧
    decode ⟨.awaitingStart, false, false⟩ 0b01111111#8 = .ok (.ia true 0xF) ∧
    decode ⟨.awaitingStart, false, false⟩ 0b00000101#8 = .ok (.noedge 0x5) ∧
    decode ⟨.awaitingStart, false, false⟩ 0b00010101#8 = .error .polarityWithoutReadEdge ∧
    decode ⟨.awaitingStart, false, false⟩ 0b01010101#8 = .error .polarityWithoutReadEdge

/-- Decoding the encoding of a command gives it back, for every command and every operand, in every combination of the state bits that
selects the command (30_encoding.md sections 2 and 3). -/
def Obligations.DecodeOfEncode : Prop :=
  ∀ (c : DecodeCtx) (i : Instr), i.selectedIn c = true → decode c (encode i) = .ok i

/-- A decoded byte is the encoding of what it decodes to, which the state bits select: no bit is dropped and no word has two
meanings, in every combination of the bits that a state can have. -/
def Obligations.EncodeOfDecode : Prop :=
  ∀ (c : DecodeCtx) (w : EventByte) (i : Instr), c.coherent = true → decode c w = .ok i →
    encode i = w ∧ i.selectedIn c = true

/-- 30_encoding.md section 8: the decoder is the one written from the table alone: mask, compare, evaluate `when`; the operands are the
bits the row leaves free. -/
def Obligations.DecoderIsTheTables : Prop :=
  ∀ (c : DecodeCtx) (w : EventByte) (i : Instr), c.coherent = true → w.getLsbD 7 = false →
    (decode c w = .ok i ↔
      w &&& tableMask i = tableMatch i ∧ i.selectedIn c = true ∧ nibbleOf i = w.extractLsb' 0 4 ∧
        ∀ p n, i = .ia p n → p = w.getLsbD 4)

/-- 30_encoding.md section 2: every seven-bit word is a command or is malformed, malformed exactly if `P` = 1 with `R` = 0; a byte with bit 7
set is no event word (log 8). -/
def Obligations.MalformedWordsAreRejected : Prop :=
  ∀ (c : DecodeCtx) (w : EventByte),
    (w.getLsbD 7 = true → decode c w = .error .notSevenBits) ∧
    (w.getLsbD 7 = false → w.getLsbD 5 = false → w.getLsbD 4 = true → decode c w = .error .polarityWithoutReadEdge) ∧
    (w.getLsbD 7 = false → (w.getLsbD 5 = true ∨ w.getLsbD 4 = false) → ∃ i, decode c w = .ok i)

/-- 20_memory.md section 2: `n = b0*1 + b1*2 + b2*4 + b3*8` with a high level read as 1, which is the spec's own reading (R46, decision D2; DEDUCED,
log 22): so the decoder reads the four levels in the event word of an LA (R60, R63), so the wires give them to the word (DEDUCED, log 23), and
so they reach the address with the first nibble of a load (R95). -/
def Obligations.NibbleWeightsOfTheLines : Prop :=
  ∀ b3 b2 b1 b0 : Bool,
    let w : EventByte := 0b0100#4 ++ BitVec.ofBool b3 ++ BitVec.ofBool b2 ++ BitVec.ofBool b1 ++ BitVec.ofBool b0
    let v : Nat := b0.toNat * 1 + b1.toNat * 2 + b2.toNat * 4 + b3.toNat * 8
    (fieldsOf w).n.toNat = v ∧
    (∀ c : DecodeCtx, ∃ n : Nibble, decode c w = .ok (.la n) ∧ n.toNat = v) ∧
    (∀ c : Config, eventWordOf c ⟨some c.loadPol, none, b3, b2, b1, b0⟩ = w) ∧
    ∀ s : State, LatchesClear s → s.loadNibbleIndex = 0 → ∃ t, applyEvent w s = .next t ∧ t.address.toNat = v

/-- 30_encoding.md section 1, 40_command_decoder.md section 1: what edges by polarity are as event words. The LOAD line's other
polarity is no event, alone or with a READ edge; the READ line's clock polarity is the opposite of the start polarity. That a LOAD trigger
edge with a READ edge of EITHER polarity, armed or not, is IA is the model's reading of R60 and R66 (DEDUCED, log 23; R75 and R168 speak of
trigger edges on both lines). -/
def Obligations.EdgesBecomeEventWords : Prop :=
  ∀ (c : Config) (b3 b2 b1 b0 : Bool) (p q : Polarity),
    let ad : Nibble := BitVec.ofBool b3 ++ BitVec.ofBool b2 ++ BitVec.ofBool b1 ++ BitVec.ofBool b0
    let word : Option Polarity → Option Polarity → EventByte := fun load read => eventWordOf c ⟨load, read, b3, b2, b1, b0⟩
    word (some c.loadPol) none = wordLA ad ∧
    (p ≠ c.loadPol → word (some p) none = encode (.noedge ad)) ∧
    word none (some c.readStartPol) = encode (.rdStart ad) ∧
    (q ≠ c.readStartPol → word none (some q) = encode (.rdClk ad)) ∧
    word (some c.loadPol) (some q) = encode (.ia (decide (q ≠ c.readStartPol)) ad) ∧
    (p ≠ c.loadPol → word (some p) (some c.readStartPol) = encode (.rdStart ad)) ∧
    (p ≠ c.loadPol → q ≠ c.readStartPol → word (some p) (some q) = encode (.rdClk ad)) ∧
    word none none = encode (.noedge ad)

/-! ### The step -/

/-- A step runs the command the next event word decodes to, on the state with that input taken, where no event is pending (log 7, log 19). -/
def Obligations.StepRunsDecodedCommand : Prop :=
  ∀ (s : State) (w : EventByte) (rest : List Input) (i : Instr),
    s.inputs = .event w :: rest → LatchesClear s → decode (decodeCtx s) w = .ok i →
      step s = exec i { s with inputs := rest }

/-- A step is the effect of the oldest input on the state with that input taken, and what the effect of each kind of input is: an event word's,
that of the word the edges make at wire level (R60, R62, R80, R81), the capture of edges (R83), the dispatch of a pending handler (R84).
`RESET` is `ResetInputGivesResetState`. The list of inputs and their kinds are the model's choice (log 7, log 13). -/
def Obligations.InputsTakeEffectByKind : Prop :=
  (∀ (s : State) (i : Input) (rest : List Input), s.inputs = i :: rest → step s = applyInput i { s with inputs := rest }) ∧
  ∀ s : State,
    (∀ w, applyInput (.event w) s = applyEvent w s) ∧
    (∀ e, applyInput (.edges e) s = applyEvent (eventWordOf s.config e) s) ∧
    (∀ w, applyInput (.capture w) s = captureWord w s) ∧
    (∀ ad, applyInput (.dispatch ad) s = dispatch ad s)

/-- A step on a malformed event word is refused by name (30_encoding.md section 2), and with no input the device holds its state
(60_exceptions.md section 6). -/
def Obligations.StepWithoutCommand : Prop :=
  ∀ s : State,
    (s.inputs = [] → step s = .next s) ∧
    (∀ w rest e, s.inputs = .event w :: rest → decode (decodeCtx s) w = .error e → step s = .refused (.badEventWord e))

/-- R86 with R87: under R167 the machine is this step function. -/
def Obligations.AtomicEventStepFunction : Prop :=
  ∀ (s : State) (n : Nibble) (p : Bool), LatchesClear s →
    let readData : Host.Outcome State Fault Refusal :=
      if s.transferActive = false then
        if s.addressValid = false then exec (.rdDummy 0) s else exec (.rdStart 0) s
      else exec (.rdClk 0) s
    applyEvent (wordLA n) s = exec (.la n) s ∧
    applyEvent wordRS s = (if s.readEdgeSel = .awaitingStart then readData else .next s) ∧
    applyEvent wordRC s = (if s.readEdgeSel = .awaitingClock then readData else .next s) ∧
    applyEvent (wordIA p n) s = .refused .indirectAddress

/-- 40_command_decoder.md R86 over R83 and R84: one atomic event is the capture of its edges and then one dispatch, with the same levels on
AD[3:0]. With no event pending this is R86; with one pending it is the model's choice (log 19). -/
def Obligations.AtomicEventIsCaptureThenDispatch : Prop :=
  ∀ (s : State) (w : EventByte),
    applyEvent w s =
      match captureWord w s with
      | .next t => dispatch (w.extractLsb' 0 4) t
      | .fault r => .fault r
      | .refused r => .refused r

/-- R83: a trigger edge sets its own latch and nothing else, set or not before; the READ edge's polarity is tested against `readEdgeSel` at the
edge; other edges latch nothing. Of the commands only LA clears the READ latch; its own dispatch is `DispatchOfPendingEvents`. -/
def Obligations.TriggerEdgeSetsItsLatch : Prop :=
  ∀ (s : State) (n : Nibble),
    captureWord (wordLA n) s = .next { s with loadPending := true } ∧
    captureWord wordRS s = .next (if s.readEdgeSel = .awaitingStart then { s with readPending := true } else s) ∧
    captureWord wordRC s = .next (if s.readEdgeSel = .awaitingClock then { s with readPending := true } else s) ∧
    ∀ (i : Instr) (t : State), exec i s = .next t → s.readPending = true → t.readPending = false → ∃ m, i = .la m

/-- 40_command_decoder.md section 2: a dispatch clears the latch and runs that latch's handler; with both set one of the two goes first, the
order being a free value (log 14), and where LOAD goes first the READ event is lost. -/
def Obligations.DispatchOfPendingEvents : Prop :=
  ∀ (s : State) (ad : Nibble),
    (s.loadPending = true → s.readPending = false →
      dispatch ad s = exec (.la ad) { s with loadPending := false }) ∧
    (s.loadPending = false → s.readPending = true →
      dispatch ad s = exec (readBranch (decodeCtx s) ad) { s with readPending := false }) ∧
    (s.loadPending = true → s.readPending = true →
      (dispatch ad s = exec (.la ad) { s with loadPending := false, draws := s.draws + 1 } ∧
          ∀ t, dispatch ad s = .next t → t.readPending = false ∧ t.loadPending = false) ∨
        (dispatch ad s = exec (readBranch (decodeCtx s) ad) { s with readPending := false, draws := s.draws + 1 } ∧
          ∀ t, dispatch ad s = .next t → t.readPending = false ∧ t.loadPending = true))

/-- 60_exceptions.md section 1, 10_state.md section 3: where the host keeps its rules every input is answered by a next state, and no event is
pending after it. -/
def Obligations.HostRulesNeverStop : Prop :=
  ∀ (s : State) (i : Input), LatchesClear s → obeysHostRules s.config i = true →
    ∃ t, applyInput i s = .next t ∧ LatchesClear t

/-! ### LOAD ADDRESS -/

/-- R95 and R96: the word `100nnnn` is `LA n` in every state, and LA has this one next state. -/
def Obligations.LoadAddressSevenSteps : Prop :=
  ∀ (n : Nibble) (s : State),
    (∀ c, decode c (0b0100#4 ++ n) = .ok (.la n)) ∧
    let start : BitVec addrW := if s.loadNibbleIndex = 0 then 0 else s.address
    let a : BitVec addrW := start ||| (n.setWidth addrW <<< (4 * s.loadNibbleIndex.val))
    exec (.la n) s = .next
      (if s.loadNibbleIndex = 4 then
        { s with
          transferActive := false, bankOwnsBus := false, lineDriven := false
          readEdgeSel := .awaitingStart, readPending := false
          addressValid := true, loadNibbleIndex := 0
          bankSelect := a.extractLsb' 14 4, address := a &&& 0x3FFFF }
      else
        { s with
          transferActive := false, bankOwnsBus := false, lineDriven := false
          readEdgeSel := .awaitingStart, readPending := false
          addressValid := false, loadNibbleIndex := s.loadNibbleIndex + 1, address := a })

/-- R97: the result of five nibbles from index 0, whatever edges that are no trigger edges (READ edges of clock polarity, which is not armed
here, and instants without an event edge) come between them. -/
def Obligations.FiveNibblesLoadTheAddress : Prop :=
  ∀ (s : State) (n0 n1 n2 n3 n4 : Nibble) (g1 g2 g3 g4 : List EventByte), LatchesClear s → s.loadNibbleIndex = 0 →
    (∀ w ∈ g1 ++ g2 ++ g3 ++ g4, w.extractLsb' 4 4 = 0b0011#4 ∨ w.extractLsb' 4 4 = 0b0000#4) →
    let a20 : BitVec 20 :=
      n0.setWidth 20 ||| (n1.setWidth 20 <<< 4) ||| (n2.setWidth 20 <<< 8) ||| (n3.setWidth 20 <<< 12) |||
        (n4.setWidth 20 <<< 16)
    ∃ t, runWords ([wordLA n0] ++ g1 ++ [wordLA n1] ++ g2 ++ [wordLA n2] ++ g3 ++ [wordLA n3] ++ g4 ++
        [wordLA n4]) s = .next t ∧
      t.address = (a20.extractLsb' 0 18).setWidth addrW ∧ t.bankSelect = a20.extractLsb' 14 4 ∧
      t.addressValid = true ∧ t.loadNibbleIndex = 0 ∧ t.transferActive = false ∧ t.bankOwnsBus = false ∧
      dataOut t = .released ∧ t.readEdgeSel = .awaitingStart

/-- R104: the result of any number of nibbles from index 0. -/
def Obligations.NibbleRunCountsModuloFive : Prop :=
  ∀ (s : State) (ns : List Nibble), LatchesClear s → s.loadNibbleIndex = 0 → ns ≠ [] →
    let m := ns.length
    ∃ t, runWords (ns.map wordLA) s = .next t ∧
      t.loadNibbleIndex.val = m % 5 ∧
      t.addressValid = decide (m % 5 = 0) ∧
      t.address.toNat =
        if m % 5 = 0 then valueOfNibbles (ns.drop (m - 5)) % 2 ^ 18 else valueOfNibbles (ns.drop (m - m % 5))

/-- R101: a sixth LA directly after a completed load starts a new one, and `bankSelect` keeps its value until that one completes. -/
def Obligations.SixthNibbleStartsOver : Prop :=
  ∀ (s : State) (n : Nibble) (ns : List Nibble), LatchesClear s → s.addressValid = true → ValidAtIndexZero s → ns.length ≤ 3 →
    ∃ t u, exec (.la n) s = .next t ∧ t.address = n.setWidth addrW ∧ t.loadNibbleIndex = 1 ∧ t.addressValid = false ∧
      runWords (wordLA n :: ns.map wordLA) s = .next u ∧ u.bankSelect = s.bankSelect ∧ u.addressValid = false

/-- R99: LA ends the session and releases the line in every state; inside a session, at any bit position, it is the first nibble of a
new load. -/
def Obligations.LoadAddressCancelsSession : Prop :=
  ∀ (s : State) (n : Nibble), ∃ t, exec (.la n) s = .next t ∧
    t.transferActive = false ∧ t.bankOwnsBus = false ∧ dataOut t = .released ∧
    t.bitCursor = s.bitCursor ∧ t.currentByte = s.currentByte ∧
    (StateInv s → s.transferActive = true → t.address = n.setWidth addrW ∧ t.loadNibbleIndex = 1)

/-! ### READ DATA -/

/-- R106 (and R11), with `TOP_WRAP` = `slice`, which is the rules of the spec. -/
def Obligations.FetchResolvesTheBank : Prop :=
  ∀ s : State, s.config.topWrap = .slice →
    fetch s =
      if s.address.extractLsb' 14 4 = s.config.bankId then
        { s with bankOwnsBus := true, currentByte := s.config.rom.read (s.address.extractLsb' 0 14) }
      else { s with bankOwnsBus := false, currentByte := 0xFF }

/-- 93_implementation_defined.md U3: with `TOP_WRAP` = `silent` no device owns an address of 2^18 or more; below, `Fetch()` is R106 as with
`slice`. -/
def Obligations.SilentTopHasNoOwner : Prop :=
  ∀ s : State, s.config.topWrap = .silent →
    (2 ^ 18 ≤ s.address.toNat → fetch s = { s with bankOwnsBus := false, currentByte := 0xFF }) ∧
    (s.address.toNat < 2 ^ 18 →
      fetch s =
        if s.address.extractLsb' 14 4 = s.config.bankId then
          { s with bankOwnsBus := true, currentByte := s.config.rom.read (s.address.extractLsb' 0 14) }
        else { s with bankOwnsBus := false, currentByte := 0xFF })

/-- 00_scope.md R6, 20_memory.md R41, R51: what a ROM read gives. A listed cell reads as its byte; an offset that no cell lists reads as
`Memory.unlisted` = 0x00 (the model's choice, log 2); the platform's programming of one byte reads back there and changes no other offset. -/
def Obligations.RomReadsItsCells : Prop :=
  Memory.unlisted = 0x00 ∧
  ∀ (m : Memory) (o : Offset),
    (∀ b, m.wf = true → (o.toNat, b) ∈ m → m.read o = b) ∧
    ((∀ b, (o.toNat, b) ∉ m) → m.read o = Memory.unlisted) ∧
    ∀ (p : Offset) (b : Byte), m.wf = true →
      (m.burn p b).wf = true ∧ (m.burn p b).read o = if o = p then b else m.read o

/-- 00_scope.md R6: `ROM` is "a total pure function from a 14-bit unsigned offset to a byte", of whose values nothing is assumed: every such
function is what exactly one ROM in the model's canonical form reads as (log 2). -/
def Obligations.RomIsAnyFunctionOfTheOffset : Prop :=
  ∀ f : Offset → Byte, ∃ m : Memory, (m.wf = true ∧ ∀ o, m.read o = f o) ∧
    ∀ m' : Memory, m'.wf = true → (∀ o, m'.read o = f o) → m' = m

/-- R107: the dummy pulse. -/
def Obligations.DummyPulseZeroesLoadProgress : Prop :=
  ∀ (x : Nibble) (s : State),
    decode ⟨.awaitingStart, false, false⟩ (0b0010#4 ++ x) = .ok (.rdDummy x) ∧
    exec (.rdDummy x) s = .next { s with address := 0, loadNibbleIndex := 0 }

/-- R108: the start pulse, in terms of whether the device owns `address` (R106). -/
def Obligations.StartPulseOpensSession : Prop :=
  ∀ (x : Nibble) (s : State),
    decode ⟨.awaitingStart, false, true⟩ (0b0010#4 ++ x) = .ok (.rdStart x) ∧
    exec (.rdStart x) s = .next { s with
      transferActive := true
      bankOwnsBus := (fetch s).bankOwnsBus
      currentByte := (fetch s).currentByte
      bitCursor := 0
      readEdgeSel := .awaitingClock }

/-- R109: the clock pulse. -/
def Obligations.ClockPulseShiftsOneBit : Prop :=
  ∀ (x : Nibble) (s : State),
    decode ⟨.awaitingClock, true, true⟩ (0b0011#4 ++ x) = .ok (.rdClk x) ∧
    let level : Bool := if s.bankOwnsBus = true then s.currentByte.getLsbD s.bitCursor.val else s.lineLevel
    (s.bitCursor ≠ 7 → exec (.rdClk x) s = .next { s with
      lineDriven := s.bankOwnsBus
      lineLevel := level
      bitCursor := s.bitCursor + 1 }) ∧
    (s.bitCursor = 7 → exec (.rdClk x) s = .next (fetch { s with
      lineDriven := s.bankOwnsBus
      lineLevel := level
      bitCursor := 0
      address := s.address + 1 }))

/-- R110: the bit on the line after the (k+1)-th clock pulse of a session, and an RS edge in between does not disturb it; with `TOP_WRAP` =
`slice`, the rules of the spec. -/
def Obligations.SessionPutsOutTheRomBits : Prop :=
  ∀ s : State, StateInv s → LatchesClear s → phaseOf s = .armed → s.config.topWrap = .slice →
    ∀ k : Nat,
      let a : BitVec addrW := s.address + BitVec.ofNat addrW (k / 8)
      ∃ t, runWords (wordRS :: clocks (k + 1)) s = .next t ∧
        dataOut t =
          (if a.extractLsb' 14 4 = s.config.bankId then
            .driven ((s.config.rom.read (a.extractLsb' 0 14)).getLsbD (k % 8))
          else .released) ∧
        applyEvent wordRS t = .next t

/-- R116 and R111: `k` clock pulses of a session count bits modulo 8 and bytes, owned or not; the session goes on. -/
def Obligations.ClockPulsesCountBitsAndBytes : Prop :=
  ∀ s : State, StateInv s → LatchesClear s → s.transferActive = true →
    ∀ k : Nat, ∃ t, runWords (clocks k) s = .next t ∧
      t.bitCursor.val = (s.bitCursor.val + k) % 8 ∧
      t.address = s.address + BitVec.ofNat addrW ((s.bitCursor.val + k) / 8) ∧
      t.transferActive = true

/-- R124 with R112: at the end of a byte the flag changes in that pulse and the line one pulse later, in all four situations of the table;
an LA before the later pulse releases the line instead. -/
def Obligations.LineLagsOwnershipByOnePulse : Prop :=
  ∀ (s : State) (x y n : Nibble), StateInv s → s.transferActive = true → s.bitCursor = 7 →
    ∃ t u v, exec (.rdClk x) s = .next t ∧ exec (.rdClk y) t = .next u ∧ exec (.la n) t = .next v ∧
      t.bankOwnsBus = ownsAddress s.config (s.address + 1) ∧
      t.currentByte = (if t.bankOwnsBus = true then s.config.rom.read (offsetOf (s.address + 1)) else 0xFF) ∧
      dataOut t = (if s.bankOwnsBus = true then .driven (s.currentByte.getLsbD 7) else .released) ∧
      dataOut u = (if t.bankOwnsBus = true then .driven (t.currentByte.getLsbD 0) else .released) ∧
      dataOut v = .released

/-- R114: while `bankOwnsBus` is false a clock pulse drives nothing, and after a session is started in a bank of another device none of the
eight clock pulses of the first byte does. -/
def Obligations.SentinelIsNeverDriven : Prop :=
  ∀ (s : State) (x : Nibble), s.bankOwnsBus = false →
    (∃ t, exec (.rdClk x) s = .next t ∧ dataOut t = .released ∧ t.lineLevel = s.lineLevel) ∧
    (StateInv s → LatchesClear s → s.transferActive = true → s.bitCursor = 0 → s.lineDriven = false →
      ∀ k ≤ 8, ∃ t, runWords (clocks k) s = .next t ∧ dataOut t = .released ∧ t.lineLevel = s.lineLevel)

/-- R52 at the top of the space: the register is not masked, and reading goes on at bank 0, offset 0 (`TOP_WRAP` = `slice`). -/
def Obligations.AddressGrowsPastTheTop : Prop :=
  ∀ (s : State) (x : Nibble), s.config.topWrap = .slice → s.bitCursor = 7 → s.address = 0x3FFFF →
    ∃ t, exec (.rdClk x) s = .next t ∧ t.address = 0x40000 ∧
      t.bankOwnsBus = decide (s.config.bankId = 0) ∧
      (s.config.bankId = 0 → t.currentByte = s.config.rom.read 0)

/-- R115: an RS edge in the middle of a load is a dummy pulse that aborts it; short of completing the load (and of `RESET`) nothing else
brings the nibble count back to 0. -/
def Obligations.StartEdgeAbortsLoad : Prop :=
  ∀ s : State, StateInv s → LatchesClear s → s.loadNibbleIndex ≠ 0 →
    applyEvent wordRS s = .next { s with address := 0, loadNibbleIndex := 0 } ∧
    ∀ (i : Input) (t : State), obeysHostRules s.config i = true → applyInput i s = .next t → t.loadNibbleIndex = 0 →
      (s.loadNibbleIndex = 4 ∧ t.addressValid = true) ∨ t = { s with address := 0, loadNibbleIndex := 0 } ∨ ∃ w, i = .reset w

/-! ### Edges that are not events, and the reserved command -/

/-- R82: READ edges of the polarity that is not armed. -/
def Obligations.UnarmedEdgesChangeNothing : Prop :=
  ∀ (x : Nibble) (s : State),
    (∀ a v, decode ⟨.awaitingClock, a, v⟩ (0b0010#4 ++ x) = .ok (.rdIgnS x)) ∧
    (∀ a v, decode ⟨.awaitingStart, a, v⟩ (0b0011#4 ++ x) = .ok (.rdIgnC x)) ∧
    exec (.rdIgnS x) s = .next s ∧ exec (.rdIgnC x) s = .next s

/-- 30_encoding.md section 2: `000xxxx` is no event and changes nothing. -/
def Obligations.NoEdgeChangesNothing : Prop :=
  ∀ (x : Nibble) (s : State),
    (∀ c, decode c (0b0000#4 ++ x) = .ok (.noedge x)) ∧ exec (.noedge x) s = .next s

/-- R135: INDIRECT ADDRESS is refused, in any state. -/
def Obligations.IndirectAddressIsRefused : Prop :=
  ∀ (p : Bool) (n : Nibble) (s : State),
    (∀ c, decode c (0b011#3 ++ BitVec.ofBool p ++ n) = .ok (.ia p n)) ∧
    exec (.ia p n) s = .refused .indirectAddress ∧
    applyEvent (wordIA p n) s = .refused .indirectAddress

/-- R71: the levels of AD[3:0] at a READ edge have no effect: on the capture of the edge in any state, on its handler with no event pending. -/
def Obligations.ReadEdgeIgnoresTheNibble : Prop :=
  ∀ (s : State) (x y : Nibble),
    captureWord (0b0010#4 ++ x) s = captureWord (0b0010#4 ++ y) s ∧
    captureWord (0b0011#4 ++ x) s = captureWord (0b0011#4 ++ y) s ∧
    (LatchesClear s →
      applyEvent (0b0010#4 ++ x) s = applyEvent (0b0010#4 ++ y) s ∧
      applyEvent (0b0011#4 ++ x) s = applyEvent (0b0011#4 ++ y) s)

/-! ### Frames -/

/-- No command writes the constants of the instance, the LOAD latch (R96) or the model's own fields; only LA clears the READ latch. -/
def Obligations.CommandsLeaveInterfaceAlone : Prop :=
  ∀ (i : Instr) (s t : State), exec i s = .next t →
    t.config = s.config ∧ t.inputs = s.inputs ∧ t.draws = s.draws ∧ t.loadPending = s.loadPending ∧
      ((∀ n, i ≠ .la n) → t.readPending = s.readPending)

/-- 00_scope.md section 4, 20_memory.md section 4: `BANK_ID` and every byte of `ROM` are the same after every step, `RESET` among them. -/
def Obligations.ConstantsNeverChange : Prop :=
  ∀ s t : State, step s = .next t →
    t.config = s.config ∧ ∀ o : Offset, t.config.rom.read o = s.config.rom.read o

/-- R120: `DATA` is a function of two elements; it changes only inside LA, to `Z`, and inside RD.CLK. -/
def Obligations.DataLineChangesOnlyInLoadAndClock : Prop :=
  ∀ s : State,
    (s.lineDriven = false → dataOut s = .released) ∧ (s.lineDriven = true → dataOut s = .driven s.lineLevel) ∧
    ∀ (i : Instr) (t : State), exec i s = .next t →
      ((∃ n, i = .la n) → dataOut t = .released) ∧
      ((∀ n, i ≠ .la n) → (∀ x, i ≠ .rdClk x) → dataOut t = dataOut s)

/-- 44_unsupported.md R136: the three lines AD other than the data line are never driven. -/
def Obligations.OnlyTheDataLineIsDriven : Prop :=
  ∀ (s : State) (i : Fin 4), (i ≠ s.config.dataLine → adOut s i = .released) ∧ (i = s.config.dataLine → adOut s i = dataOut s)

/-! ### Rules about the whole machine -/

/-- R88: who writes `readEdgeSel`. -/
def Obligations.WritersOfTheArmedPolarity : Prop :=
  ∀ (i : Instr) (s t : State), exec i s = .next t →
    ((∃ n, i = .la n) → t.readEdgeSel = .awaitingStart) ∧
    ((∃ x, i = .rdStart x) → t.readEdgeSel = .awaitingClock) ∧
    ((∀ n, i ≠ .la n) → (∀ x, i ≠ .rdStart x) → t.readEdgeSel = s.readEdgeSel) ∧
    ∀ w u, applyInput (.reset w) s = .next u → u.readEdgeSel = .awaitingStart

/-- R137: the complete list of what changes state: LA, RD.DUMMY, RD.START, RD.CLK and reset, for one event at a time. -/
def Obligations.OnlyFourCommandsAndResetChangeState : Prop :=
  ∀ (s t : State) (i : Input), LatchesClear s → obeysHostRules s.config i = true → applyInput i s = .next t → t ≠ s →
    (∃ w, i = .reset w) ∨
      ∃ c, applyInput i s = exec c s ∧
        ((∃ n, c = .la n) ∨ (∃ x, c = .rdDummy x) ∨ (∃ x, c = .rdStart x) ∨ ∃ x, c = .rdClk x)

/-- R113: a session ends by LA or reset only. -/
def Obligations.SessionEndsOnlyByLoadOrReset : Prop :=
  ∀ (s t : State) (i : Input), StateInv s → LatchesClear s → obeysHostRules s.config i = true → s.transferActive = true →
    applyInput i s = .next t → t.transferActive = false →
      (∃ w, i = .reset w) ∨ ∃ n, applyInput i s = exec (.la n) s

/-- R89: every transition between the four phases. -/
def Obligations.PhaseTransitions : Prop :=
  ∀ (s : State) (n : Nibble), StateInv s → LatchesClear s →
    (∃ t, applyEvent (wordLA n) s = .next t ∧ dataOut t = .released ∧
      phaseOf t = (if s.loadNibbleIndex = 4 then .armed else .loading) ∧
      (phaseOf s = .loading → s.loadNibbleIndex ≠ 4 → t.loadNibbleIndex = s.loadNibbleIndex + 1) ∧
      (phaseOf s ≠ .loading → t.loadNibbleIndex = 1 ∧ t.address = n.setWidth addrW)) ∧
    (∃ t, applyEvent wordRS s = .next t ∧
      (phaseOf s = .idle → phaseOf t = .idle) ∧
      (phaseOf s = .loading → phaseOf t = .idle ∧ t.address = 0 ∧ t.loadNibbleIndex = 0) ∧
      (phaseOf s = .armed → phaseOf t = .session) ∧
      (phaseOf s = .session → t = s)) ∧
    (∃ t, applyEvent wordRC s = .next t ∧
      (phaseOf s ≠ .session → t = s) ∧
      (phaseOf s = .session → phaseOf t = .session ∧ t.bitCursor = s.bitCursor + 1))

/-- R14: `bankSelect` is written at the completion of a load only (and by `RESET`), and no rule reads it: another value in it changes nothing
else in the next state, nor whether there is one. -/
def Obligations.BankSelectIsReadByNothing : Prop :=
  (∀ (i : Instr) (s t : State), exec i s = .next t →
    t.bankSelect = s.bankSelect ∨
      ((∃ n, i = .la n) ∧ s.loadNibbleIndex = 4 ∧ t.addressValid = true ∧ t.bankSelect = t.address.extractLsb' 14 4)) ∧
  ∀ (s : State) (b : Bank),
    (∃ u c, step s = .next u ∧ step { s with bankSelect := b } = .next { u with bankSelect := c }) ∨
      ∃ r, step s = .refused r ∧ step { s with bankSelect := b } = .refused r

/-- R23: only RD.CLK writes `lineLevel`, where the device owns the bus; while the line is released another `lineLevel` changes no output and
nothing else, after any step. -/
def Obligations.StaleLevelIsNeverPresented : Prop :=
  (∀ (i : Instr) (s t : State), exec i s = .next t → t.lineLevel ≠ s.lineLevel →
    (∃ x, i = .rdClk x) ∧ s.bankOwnsBus = true ∧ t.lineDriven = true) ∧
  ∀ (s : State) (b : Bool), s.lineDriven = false →
    (∃ u c, step s = .next u ∧ step { s with lineLevel := b } = .next { u with lineLevel := c } ∧
        dataOut { u with lineLevel := c } = dataOut u) ∨
      ∃ r, step s = .refused r ∧ step { s with lineLevel := b } = .refused r

/-- R18 and R19: outside a session other values of `bitCursor` and `currentByte` are not seen: they change nothing else, and the start of a
session makes them equal. -/
def Obligations.StaleCursorAndByteAreNotSeen : Prop :=
  ∀ (s : State) (k : Fin 8) (b : Byte), s.transferActive = false →
    (∃ u k' b', step s = .next u ∧
        step { s with bitCursor := k, currentByte := b } = .next { u with bitCursor := k', currentByte := b' } ∧
        (u.transferActive = true → k' = u.bitCursor ∧ b' = u.currentByte)) ∨
      ∃ r, step s = .refused r ∧ step { s with bitCursor := k, currentByte := b } = .refused r

/-- 10_state.md R13, the derived part: bits 18 and above of `address` are seen by no output: two states that differ there only step to
states that differ there only (`TOP_WRAP` = `slice`). -/
def Obligations.HighAddressBitsAreNotSeen : Prop :=
  ∀ (s : State) (a : BitVec addrW), s.config.topWrap = .slice → a.extractLsb' 0 18 = s.address.extractLsb' 0 18 →
    (∃ u a', step s = .next u ∧ step { s with address := a } = .next { u with address := a' } ∧
        a'.extractLsb' 0 18 = u.address.extractLsb' 0 18) ∨
      ∃ r, step s = .refused r ∧ step { s with address := a } = .refused r

/-- 10_state.md R13, the derived part, over widths: for any two widths of at least 20 the address operations agree on bits 17:0, and bank and
offset are the same. -/
def Obligations.AddressWidthDoesNotMatter : Prop :=
  ∀ (w v : Nat) (a : BitVec w) (b : BitVec v) (n : Nibble) (k : Fin 5), 20 ≤ w → 20 ≤ v →
    a.extractLsb' 0 18 = b.extractLsb' 0 18 →
      bankOf a = bankOf b ∧ offsetOf a = offsetOf b ∧
      (nextAddress a).extractLsb' 0 18 = (nextAddress b).extractLsb' 0 18 ∧
      (insertNibble a n k.val).extractLsb' 0 18 = (insertNibble b n k.val).extractLsb' 0 18 ∧
      (maskTo18 a).extractLsb' 0 18 = (maskTo18 b).extractLsb' 0 18 ∧
      (maskTo18 a).toNat = (maskTo18 b).toNat

/-! ### Invariants -/

/-- 10_state.md section 6: R30 to R36 hold at reset. -/
def Obligations.InvariantAtReset : Prop := StateInv State.reset ∧ LatchesClear State.reset

/-- 10_state.md section 6: every step keeps R30 to R36, whatever the input, latched events and `RESET` among them, for both values of
`TOP_WRAP`. -/
def Obligations.EveryStepKeepsTheInvariant : Prop :=
  ∀ s t : State, StateInv s → step s = .next t → StateInv t

/-! ### The multi-drop bus -/

/-- R126: the resolution of the outputs, by how many of them are driven; the host reads `BUS_FLOAT` on a floating bus. That `unknown` is a
free level at each sample, counted in `samples`, is the model's choice (DESIGN CHOICE, log 17, after D19). -/
def Obligations.BusIsResolvedByDriverCount : Prop :=
  ∀ y : System,
    ((∀ d ∈ y.devices, dataOut d = .released) →
      System.bus y = .floating ∧
      (y.busFloat = .zero → System.sample y = .next (false, y)) ∧
      (y.busFloat = .one → System.sample y = .next (true, y)) ∧
      (y.busFloat = .unknown → ∃ b, System.sample y = .next (b, { y with samples := y.samples + 1 }))) ∧
    (∀ l r d b, y.devices = l ++ d :: r → dataOut d = .driven b → (∀ e ∈ l ++ r, dataOut e = .released) →
      System.bus y = .level b ∧ System.sample y = .next (b, y)) ∧
    (∀ l m r d e b c, y.devices = l ++ d :: m ++ e :: r → dataOut d = .driven b → dataOut e = .driven c →
      System.bus y = .contention ∧ System.sample y = .fault .busContention)

/-- R127: devices that start from reset together, with pairwise different `BANK_ID`, satisfy the bus invariant. -/
def Obligations.BusInvariantAtReset : Prop :=
  ∀ (cs : List Config) (f : BusFloat), cs.Pairwise (fun c d => c.bankId ≠ d.bankId) → (∀ c ∈ cs, c.rom.wf = true) →
    BusInv ⟨cs.map (fun c => { State.reset with config := c }), f, 0⟩

/-- R127: every allowed event keeps the bus invariant: the devices stay in lockstep, at most one owns the bus, at most one drives, and
contention never occurs. -/
def Obligations.DevicesStayInLockstep : Prop :=
  ∀ (y : System) (w : EventByte), BusInv y → allowedWord w = true →
    ∃ y', System.apply (.event w) y = .next y' ∧ BusInv y' ∧ System.bus y' ≠ .contention

/-- R128: the hand-over at a bank boundary between two devices (`TOP_WRAP` = `slice`, so that bank 0 follows bank 15). -/
def Obligations.HandOverAtBankBoundary : Prop :=
  ∀ (X Y : State) (f : BusFloat) (k : Nat), BusInv ⟨[X, Y], f, k⟩ →
    X.config.topWrap = .slice → Y.config.topWrap = .slice →
    X.transferActive = true → X.bitCursor = 7 → bankOf X.address = X.config.bankId → offsetOf X.address = 0x3FFF →
    Y.config.bankId = X.config.bankId + 1 →
    ∃ X1 Y1 X2 Y2, System.apply (.event wordRC) ⟨[X, Y], f, k⟩ = .next ⟨[X1, Y1], f, k⟩ ∧
      System.apply (.event wordRC) ⟨[X1, Y1], f, k⟩ = .next ⟨[X2, Y2], f, k⟩ ∧
      X1.bankOwnsBus = false ∧ Y1.bankOwnsBus = true ∧
      dataOut X1 = .driven (X.currentByte.getLsbD 7) ∧ dataOut Y1 = .released ∧
      dataOut X2 = .released ∧ dataOut Y2 = .driven ((Y.config.rom.read 0).getLsbD 0)

/-- R130: while no device owns the address, a clock pulse leaves every output `Z`, and the devices go on counting. -/
def Obligations.UnownedBankFloats : Prop :=
  ∀ y : System, BusInv y → (∀ d ∈ y.devices, d.transferActive = true ∧ d.bankOwnsBus = false) →
    ∃ y', System.apply (.event wordRC) y = .next y' ∧ System.bus y' = .floating ∧
      y'.devices.map (fun d => d.bitCursor) = y.devices.map (fun d => d.bitCursor + 1)
end

