-- ==== Sys2Proof/Laws/Memory.lean ====
section
/-! SUPPORT. The ROM's contents: the platform's one writing operation keeps the canonical form, and reads back. -/

namespace Sys2Proof.Memory

theorem wfFrom_cons {lo a : Nat} {b : Byte} {rest : Memory} :
    wfFrom lo ((a, b) :: rest) = true ↔
      lo ≤ a ∧ a < 0x4000 ∧ b ≠ unlisted ∧ wfFrom (a + 1) rest = true := by
  simp [wfFrom, and_assoc]

theorem wfFrom_mono {lo hi : Nat} (h : lo ≤ hi) {m : Memory} (hm : wfFrom hi m = true) : wfFrom lo m = true := by
  cases m with
  | nil => rfl
  | cons c rest =>
    obtain ⟨a, b⟩ := c
    rw [wfFrom_cons] at hm ⊢
    exact ⟨by omega, hm.2.1, hm.2.2.1, hm.2.2.2⟩

/-- Burning a byte at an offset of the table keeps the canonical form. -/
theorem burnAt_keeps_wfFrom (m : Memory) (lo o : Nat) (b : Byte) (hlo : lo ≤ o) (ho : o < 0x4000)
    (hm : wfFrom lo m = true) : wfFrom lo (burnAt m o b) = true := by
  induction m generalizing lo with
  | nil =>
    unfold burnAt
    split
    · rfl
    · rename_i hb
      exact wfFrom_cons.2 ⟨hlo, ho, hb, rfl⟩
  | cons c rest ih =>
    obtain ⟨a, v⟩ := c
    have hc := wfFrom_cons.1 hm
    unfold burnAt
    split
    · split
      · exact hm
      · rename_i hoa hb
        exact wfFrom_cons.2 ⟨hlo, ho, hb, wfFrom_cons.2 ⟨by omega, hc.2.1, hc.2.2.1, hc.2.2.2⟩⟩
    · split
      · rename_i hoa
        split
        · exact wfFrom_mono (by omega) hc.2.2.2
        · rename_i hb
          exact wfFrom_cons.2 ⟨hlo, ho, hb, hoa ▸ hc.2.2.2⟩
      · exact wfFrom_cons.2 ⟨hc.1, hc.2.1, hc.2.2.1, ih (a + 1) (by omega) hc.2.2.2⟩

/-- Every operation that writes a ROM's contents keeps them in canonical form. -/
theorem burn_keeps_wf (m : Memory) (o : Offset) (b : Byte) (hm : m.wf = true) : (m.burn o b).wf = true :=
  burnAt_keeps_wfFrom m 0 o.toNat b (Nat.zero_le _) (by have := o.isLt; omega) hm

/-- Below the bound of a canonical list nothing is listed. -/
theorem readAt_below {m : Memory} {lo o : Nat} (hm : wfFrom lo m = true) (ho : o < lo) : m.readAt o = unlisted := by
  induction m generalizing lo with
  | nil => rfl
  | cons c rest ih =>
    obtain ⟨a, v⟩ := c
    have hc := wfFrom_cons.1 hm
    have hne : a ≠ o := by omega
    simp only [readAt, if_neg hne]
    exact ih hc.2.2.2 (by omega)

/-- A byte burnt reads back, and every other offset reads as before. -/
theorem readAt_burnAt (m : Memory) (lo o p : Nat) (b : Byte) (hm : wfFrom lo m = true) :
    (burnAt m o b).readAt p = if p = o then b else m.readAt p := by
  induction m generalizing lo with
  | nil =>
    by_cases hb : b = unlisted
    · subst hb
      by_cases hp : p = o <;> simp [burnAt, readAt, hp]
    · by_cases hp : p = o
      · simp [burnAt, readAt, hb, hp]
      · simp [burnAt, readAt, hb, hp, Ne.symm hp]
  | cons c rest ih =>
    obtain ⟨a, v⟩ := c
    have hc := wfFrom_cons.1 hm
    unfold burnAt
    split
    · rename_i hoa
      have hlow : readAt ((a, v) :: rest) o = unlisted := readAt_below (lo := a) (wfFrom_cons.2 ⟨Nat.le_refl a, hc.2⟩) hoa
      split
      · rename_i hb
        by_cases hp : p = o
        · rw [if_pos hp, hp, hlow, hb]
        · rw [if_neg hp]
      · by_cases hp : p = o
        · rw [if_pos hp, hp]; simp only [readAt, if_true]
        · rw [if_neg hp]; rw [readAt, if_neg (Ne.symm hp)]
    · split
      · rename_i hoa
        split
        · rename_i hb
          by_cases hp : p = o
          · rw [if_pos hp, hp, hb, readAt_below hc.2.2.2 (by omega)]
          · rw [if_neg hp]
            have : a ≠ p := fun h => hp (by omega)
            simp only [readAt, if_neg this]
        · by_cases hp : p = o
          · rw [if_pos hp, hp]; simp only [readAt, if_true]
          · rw [if_neg hp]
            have : a ≠ p := fun h => hp (by omega)
            rw [readAt, if_neg (Ne.symm hp)]
            simp only [readAt, if_neg this]
      · rename_i h1 h2
        by_cases ha : a = p
        · subst ha
          have : ¬ a = o := fun h => h2 h.symm
          simp only [readAt, if_true, if_neg this]
        · simp only [readAt, if_neg ha]
          exact ih (a + 1) hc.2.2.2

/-- A byte burnt reads back, and every other offset reads as before. -/
theorem read_burn (m : Memory) (o p : Offset) (b : Byte) (hm : m.wf = true) :
    (m.burn o b).read p = if p = o then b else m.read p := by
  have h := readAt_burnAt m 0 o.toNat p.toNat b hm
  by_cases hp : p = o
  · subst hp; simpa [burn, read] using h
  · have : p.toNat ≠ o.toNat := fun e => hp (BitVec.eq_of_toNat_eq e)
    rw [if_neg this] at h
    rw [if_neg hp]
    exact h

end Sys2Proof.Memory
end

