-- ==== Sys2Proof/Laws/State.lean ====
section
/-! SUPPORT. One lemma per field per update of the state, true by rfl. -/

namespace Sys2Proof.Machine

/-! `release` -/

@[simp] theorem release_address (s : State) : (release s).address = s.address := rfl
@[simp] theorem release_bankSelect (s : State) : (release s).bankSelect = s.bankSelect := rfl
@[simp] theorem release_loadNibbleIndex (s : State) : (release s).loadNibbleIndex = s.loadNibbleIndex := rfl
@[simp] theorem release_addressValid (s : State) : (release s).addressValid = s.addressValid := rfl
@[simp] theorem release_transferActive (s : State) : (release s).transferActive = s.transferActive := rfl
@[simp] theorem release_bitCursor (s : State) : (release s).bitCursor = s.bitCursor := rfl
@[simp] theorem release_currentByte (s : State) : (release s).currentByte = s.currentByte := rfl
@[simp] theorem release_bankOwnsBus (s : State) : (release s).bankOwnsBus = s.bankOwnsBus := rfl
@[simp] theorem release_readEdgeSel (s : State) : (release s).readEdgeSel = s.readEdgeSel := rfl
@[simp] theorem release_lineDriven (s : State) : (release s).lineDriven = false := rfl
@[simp] theorem release_lineLevel (s : State) : (release s).lineLevel = s.lineLevel := rfl
@[simp] theorem release_readPending (s : State) : (release s).readPending = s.readPending := rfl
@[simp] theorem release_loadPending (s : State) : (release s).loadPending = s.loadPending := rfl
@[simp] theorem release_config (s : State) : (release s).config = s.config := rfl
@[simp] theorem release_inputs (s : State) : (release s).inputs = s.inputs := rfl
@[simp] theorem release_draws (s : State) : (release s).draws = s.draws := rfl

/-! `switchToDriven` -/

@[simp] theorem switchToDriven_address (s : State) : (switchToDriven s).address = s.address := rfl
@[simp] theorem switchToDriven_bankSelect (s : State) : (switchToDriven s).bankSelect = s.bankSelect := rfl
@[simp] theorem switchToDriven_loadNibbleIndex (s : State) : (switchToDriven s).loadNibbleIndex = s.loadNibbleIndex := rfl
@[simp] theorem switchToDriven_addressValid (s : State) : (switchToDriven s).addressValid = s.addressValid := rfl
@[simp] theorem switchToDriven_transferActive (s : State) : (switchToDriven s).transferActive = s.transferActive := rfl
@[simp] theorem switchToDriven_bitCursor (s : State) : (switchToDriven s).bitCursor = s.bitCursor := rfl
@[simp] theorem switchToDriven_currentByte (s : State) : (switchToDriven s).currentByte = s.currentByte := rfl
@[simp] theorem switchToDriven_bankOwnsBus (s : State) : (switchToDriven s).bankOwnsBus = s.bankOwnsBus := rfl
@[simp] theorem switchToDriven_readEdgeSel (s : State) : (switchToDriven s).readEdgeSel = s.readEdgeSel := rfl
@[simp] theorem switchToDriven_lineDriven (s : State) : (switchToDriven s).lineDriven = true := rfl
@[simp] theorem switchToDriven_lineLevel (s : State) : (switchToDriven s).lineLevel = s.lineLevel := rfl
@[simp] theorem switchToDriven_readPending (s : State) : (switchToDriven s).readPending = s.readPending := rfl
@[simp] theorem switchToDriven_loadPending (s : State) : (switchToDriven s).loadPending = s.loadPending := rfl
@[simp] theorem switchToDriven_config (s : State) : (switchToDriven s).config = s.config := rfl
@[simp] theorem switchToDriven_inputs (s : State) : (switchToDriven s).inputs = s.inputs := rfl
@[simp] theorem switchToDriven_draws (s : State) : (switchToDriven s).draws = s.draws := rfl

/-! `driveHigh` -/

@[simp] theorem driveHigh_address (s : State) : (driveHigh s).address = s.address := rfl
@[simp] theorem driveHigh_bankSelect (s : State) : (driveHigh s).bankSelect = s.bankSelect := rfl
@[simp] theorem driveHigh_loadNibbleIndex (s : State) : (driveHigh s).loadNibbleIndex = s.loadNibbleIndex := rfl
@[simp] theorem driveHigh_addressValid (s : State) : (driveHigh s).addressValid = s.addressValid := rfl
@[simp] theorem driveHigh_transferActive (s : State) : (driveHigh s).transferActive = s.transferActive := rfl
@[simp] theorem driveHigh_bitCursor (s : State) : (driveHigh s).bitCursor = s.bitCursor := rfl
@[simp] theorem driveHigh_currentByte (s : State) : (driveHigh s).currentByte = s.currentByte := rfl
@[simp] theorem driveHigh_bankOwnsBus (s : State) : (driveHigh s).bankOwnsBus = s.bankOwnsBus := rfl
@[simp] theorem driveHigh_readEdgeSel (s : State) : (driveHigh s).readEdgeSel = s.readEdgeSel := rfl
@[simp] theorem driveHigh_lineDriven (s : State) : (driveHigh s).lineDriven = s.lineDriven := rfl
@[simp] theorem driveHigh_lineLevel (s : State) : (driveHigh s).lineLevel = true := rfl
@[simp] theorem driveHigh_readPending (s : State) : (driveHigh s).readPending = s.readPending := rfl
@[simp] theorem driveHigh_loadPending (s : State) : (driveHigh s).loadPending = s.loadPending := rfl
@[simp] theorem driveHigh_config (s : State) : (driveHigh s).config = s.config := rfl
@[simp] theorem driveHigh_inputs (s : State) : (driveHigh s).inputs = s.inputs := rfl
@[simp] theorem driveHigh_draws (s : State) : (driveHigh s).draws = s.draws := rfl

/-! `driveLow` -/

@[simp] theorem driveLow_address (s : State) : (driveLow s).address = s.address := rfl
@[simp] theorem driveLow_bankSelect (s : State) : (driveLow s).bankSelect = s.bankSelect := rfl
@[simp] theorem driveLow_loadNibbleIndex (s : State) : (driveLow s).loadNibbleIndex = s.loadNibbleIndex := rfl
@[simp] theorem driveLow_addressValid (s : State) : (driveLow s).addressValid = s.addressValid := rfl
@[simp] theorem driveLow_transferActive (s : State) : (driveLow s).transferActive = s.transferActive := rfl
@[simp] theorem driveLow_bitCursor (s : State) : (driveLow s).bitCursor = s.bitCursor := rfl
@[simp] theorem driveLow_currentByte (s : State) : (driveLow s).currentByte = s.currentByte := rfl
@[simp] theorem driveLow_bankOwnsBus (s : State) : (driveLow s).bankOwnsBus = s.bankOwnsBus := rfl
@[simp] theorem driveLow_readEdgeSel (s : State) : (driveLow s).readEdgeSel = s.readEdgeSel := rfl
@[simp] theorem driveLow_lineDriven (s : State) : (driveLow s).lineDriven = s.lineDriven := rfl
@[simp] theorem driveLow_lineLevel (s : State) : (driveLow s).lineLevel = false := rfl
@[simp] theorem driveLow_readPending (s : State) : (driveLow s).readPending = s.readPending := rfl
@[simp] theorem driveLow_loadPending (s : State) : (driveLow s).loadPending = s.loadPending := rfl
@[simp] theorem driveLow_config (s : State) : (driveLow s).config = s.config := rfl
@[simp] theorem driveLow_inputs (s : State) : (driveLow s).inputs = s.inputs := rfl
@[simp] theorem driveLow_draws (s : State) : (driveLow s).draws = s.draws := rfl

/-! `armForStart` -/

@[simp] theorem armForStart_address (s : State) : (armForStart s).address = s.address := rfl
@[simp] theorem armForStart_bankSelect (s : State) : (armForStart s).bankSelect = s.bankSelect := rfl
@[simp] theorem armForStart_loadNibbleIndex (s : State) : (armForStart s).loadNibbleIndex = s.loadNibbleIndex := rfl
@[simp] theorem armForStart_addressValid (s : State) : (armForStart s).addressValid = s.addressValid := rfl
@[simp] theorem armForStart_transferActive (s : State) : (armForStart s).transferActive = s.transferActive := rfl
@[simp] theorem armForStart_bitCursor (s : State) : (armForStart s).bitCursor = s.bitCursor := rfl
@[simp] theorem armForStart_currentByte (s : State) : (armForStart s).currentByte = s.currentByte := rfl
@[simp] theorem armForStart_bankOwnsBus (s : State) : (armForStart s).bankOwnsBus = s.bankOwnsBus := rfl
@[simp] theorem armForStart_readEdgeSel (s : State) : (armForStart s).readEdgeSel = .awaitingStart := rfl
@[simp] theorem armForStart_lineDriven (s : State) : (armForStart s).lineDriven = s.lineDriven := rfl
@[simp] theorem armForStart_lineLevel (s : State) : (armForStart s).lineLevel = s.lineLevel := rfl
@[simp] theorem armForStart_readPending (s : State) : (armForStart s).readPending = s.readPending := rfl
@[simp] theorem armForStart_loadPending (s : State) : (armForStart s).loadPending = s.loadPending := rfl
@[simp] theorem armForStart_config (s : State) : (armForStart s).config = s.config := rfl
@[simp] theorem armForStart_inputs (s : State) : (armForStart s).inputs = s.inputs := rfl
@[simp] theorem armForStart_draws (s : State) : (armForStart s).draws = s.draws := rfl

/-! `armForClock` -/

@[simp] theorem armForClock_address (s : State) : (armForClock s).address = s.address := rfl
@[simp] theorem armForClock_bankSelect (s : State) : (armForClock s).bankSelect = s.bankSelect := rfl
@[simp] theorem armForClock_loadNibbleIndex (s : State) : (armForClock s).loadNibbleIndex = s.loadNibbleIndex := rfl
@[simp] theorem armForClock_addressValid (s : State) : (armForClock s).addressValid = s.addressValid := rfl
@[simp] theorem armForClock_transferActive (s : State) : (armForClock s).transferActive = s.transferActive := rfl
@[simp] theorem armForClock_bitCursor (s : State) : (armForClock s).bitCursor = s.bitCursor := rfl
@[simp] theorem armForClock_currentByte (s : State) : (armForClock s).currentByte = s.currentByte := rfl
@[simp] theorem armForClock_bankOwnsBus (s : State) : (armForClock s).bankOwnsBus = s.bankOwnsBus := rfl
@[simp] theorem armForClock_readEdgeSel (s : State) : (armForClock s).readEdgeSel = .awaitingClock := rfl
@[simp] theorem armForClock_lineDriven (s : State) : (armForClock s).lineDriven = s.lineDriven := rfl
@[simp] theorem armForClock_lineLevel (s : State) : (armForClock s).lineLevel = s.lineLevel := rfl
@[simp] theorem armForClock_readPending (s : State) : (armForClock s).readPending = s.readPending := rfl
@[simp] theorem armForClock_loadPending (s : State) : (armForClock s).loadPending = s.loadPending := rfl
@[simp] theorem armForClock_config (s : State) : (armForClock s).config = s.config := rfl
@[simp] theorem armForClock_inputs (s : State) : (armForClock s).inputs = s.inputs := rfl
@[simp] theorem armForClock_draws (s : State) : (armForClock s).draws = s.draws := rfl

/-! `latchLoad` -/

@[simp] theorem latchLoad_address (s : State) : (latchLoad s).address = s.address := rfl
@[simp] theorem latchLoad_bankSelect (s : State) : (latchLoad s).bankSelect = s.bankSelect := rfl
@[simp] theorem latchLoad_loadNibbleIndex (s : State) : (latchLoad s).loadNibbleIndex = s.loadNibbleIndex := rfl
@[simp] theorem latchLoad_addressValid (s : State) : (latchLoad s).addressValid = s.addressValid := rfl
@[simp] theorem latchLoad_transferActive (s : State) : (latchLoad s).transferActive = s.transferActive := rfl
@[simp] theorem latchLoad_bitCursor (s : State) : (latchLoad s).bitCursor = s.bitCursor := rfl
@[simp] theorem latchLoad_currentByte (s : State) : (latchLoad s).currentByte = s.currentByte := rfl
@[simp] theorem latchLoad_bankOwnsBus (s : State) : (latchLoad s).bankOwnsBus = s.bankOwnsBus := rfl
@[simp] theorem latchLoad_readEdgeSel (s : State) : (latchLoad s).readEdgeSel = s.readEdgeSel := rfl
@[simp] theorem latchLoad_lineDriven (s : State) : (latchLoad s).lineDriven = s.lineDriven := rfl
@[simp] theorem latchLoad_lineLevel (s : State) : (latchLoad s).lineLevel = s.lineLevel := rfl
@[simp] theorem latchLoad_readPending (s : State) : (latchLoad s).readPending = s.readPending := rfl
@[simp] theorem latchLoad_loadPending (s : State) : (latchLoad s).loadPending = true := rfl
@[simp] theorem latchLoad_config (s : State) : (latchLoad s).config = s.config := rfl
@[simp] theorem latchLoad_inputs (s : State) : (latchLoad s).inputs = s.inputs := rfl
@[simp] theorem latchLoad_draws (s : State) : (latchLoad s).draws = s.draws := rfl

/-! `latchRead` -/

@[simp] theorem latchRead_address (s : State) : (latchRead s).address = s.address := rfl
@[simp] theorem latchRead_bankSelect (s : State) : (latchRead s).bankSelect = s.bankSelect := rfl
@[simp] theorem latchRead_loadNibbleIndex (s : State) : (latchRead s).loadNibbleIndex = s.loadNibbleIndex := rfl
@[simp] theorem latchRead_addressValid (s : State) : (latchRead s).addressValid = s.addressValid := rfl
@[simp] theorem latchRead_transferActive (s : State) : (latchRead s).transferActive = s.transferActive := rfl
@[simp] theorem latchRead_bitCursor (s : State) : (latchRead s).bitCursor = s.bitCursor := rfl
@[simp] theorem latchRead_currentByte (s : State) : (latchRead s).currentByte = s.currentByte := rfl
@[simp] theorem latchRead_bankOwnsBus (s : State) : (latchRead s).bankOwnsBus = s.bankOwnsBus := rfl
@[simp] theorem latchRead_readEdgeSel (s : State) : (latchRead s).readEdgeSel = s.readEdgeSel := rfl
@[simp] theorem latchRead_lineDriven (s : State) : (latchRead s).lineDriven = s.lineDriven := rfl
@[simp] theorem latchRead_lineLevel (s : State) : (latchRead s).lineLevel = s.lineLevel := rfl
@[simp] theorem latchRead_readPending (s : State) : (latchRead s).readPending = true := rfl
@[simp] theorem latchRead_loadPending (s : State) : (latchRead s).loadPending = s.loadPending := rfl
@[simp] theorem latchRead_config (s : State) : (latchRead s).config = s.config := rfl
@[simp] theorem latchRead_inputs (s : State) : (latchRead s).inputs = s.inputs := rfl
@[simp] theorem latchRead_draws (s : State) : (latchRead s).draws = s.draws := rfl

/-! `clearLoadPending` -/

@[simp] theorem clearLoadPending_address (s : State) : (clearLoadPending s).address = s.address := rfl
@[simp] theorem clearLoadPending_bankSelect (s : State) : (clearLoadPending s).bankSelect = s.bankSelect := rfl
@[simp] theorem clearLoadPending_loadNibbleIndex (s : State) : (clearLoadPending s).loadNibbleIndex = s.loadNibbleIndex := rfl
@[simp] theorem clearLoadPending_addressValid (s : State) : (clearLoadPending s).addressValid = s.addressValid := rfl
@[simp] theorem clearLoadPending_transferActive (s : State) : (clearLoadPending s).transferActive = s.transferActive := rfl
@[simp] theorem clearLoadPending_bitCursor (s : State) : (clearLoadPending s).bitCursor = s.bitCursor := rfl
@[simp] theorem clearLoadPending_currentByte (s : State) : (clearLoadPending s).currentByte = s.currentByte := rfl
@[simp] theorem clearLoadPending_bankOwnsBus (s : State) : (clearLoadPending s).bankOwnsBus = s.bankOwnsBus := rfl
@[simp] theorem clearLoadPending_readEdgeSel (s : State) : (clearLoadPending s).readEdgeSel = s.readEdgeSel := rfl
@[simp] theorem clearLoadPending_lineDriven (s : State) : (clearLoadPending s).lineDriven = s.lineDriven := rfl
@[simp] theorem clearLoadPending_lineLevel (s : State) : (clearLoadPending s).lineLevel = s.lineLevel := rfl
@[simp] theorem clearLoadPending_readPending (s : State) : (clearLoadPending s).readPending = s.readPending := rfl
@[simp] theorem clearLoadPending_loadPending (s : State) : (clearLoadPending s).loadPending = false := rfl
@[simp] theorem clearLoadPending_config (s : State) : (clearLoadPending s).config = s.config := rfl
@[simp] theorem clearLoadPending_inputs (s : State) : (clearLoadPending s).inputs = s.inputs := rfl
@[simp] theorem clearLoadPending_draws (s : State) : (clearLoadPending s).draws = s.draws := rfl

/-! `clearReadPending` -/

@[simp] theorem clearReadPending_address (s : State) : (clearReadPending s).address = s.address := rfl
@[simp] theorem clearReadPending_bankSelect (s : State) : (clearReadPending s).bankSelect = s.bankSelect := rfl
@[simp] theorem clearReadPending_loadNibbleIndex (s : State) : (clearReadPending s).loadNibbleIndex = s.loadNibbleIndex := rfl
@[simp] theorem clearReadPending_addressValid (s : State) : (clearReadPending s).addressValid = s.addressValid := rfl
@[simp] theorem clearReadPending_transferActive (s : State) : (clearReadPending s).transferActive = s.transferActive := rfl
@[simp] theorem clearReadPending_bitCursor (s : State) : (clearReadPending s).bitCursor = s.bitCursor := rfl
@[simp] theorem clearReadPending_currentByte (s : State) : (clearReadPending s).currentByte = s.currentByte := rfl
@[simp] theorem clearReadPending_bankOwnsBus (s : State) : (clearReadPending s).bankOwnsBus = s.bankOwnsBus := rfl
@[simp] theorem clearReadPending_readEdgeSel (s : State) : (clearReadPending s).readEdgeSel = s.readEdgeSel := rfl
@[simp] theorem clearReadPending_lineDriven (s : State) : (clearReadPending s).lineDriven = s.lineDriven := rfl
@[simp] theorem clearReadPending_lineLevel (s : State) : (clearReadPending s).lineLevel = s.lineLevel := rfl
@[simp] theorem clearReadPending_readPending (s : State) : (clearReadPending s).readPending = false := rfl
@[simp] theorem clearReadPending_loadPending (s : State) : (clearReadPending s).loadPending = s.loadPending := rfl
@[simp] theorem clearReadPending_config (s : State) : (clearReadPending s).config = s.config := rfl
@[simp] theorem clearReadPending_inputs (s : State) : (clearReadPending s).inputs = s.inputs := rfl
@[simp] theorem clearReadPending_draws (s : State) : (clearReadPending s).draws = s.draws := rfl

/-! `countDraw` -/

@[simp] theorem countDraw_address (s : State) : (countDraw s).address = s.address := rfl
@[simp] theorem countDraw_bankSelect (s : State) : (countDraw s).bankSelect = s.bankSelect := rfl
@[simp] theorem countDraw_loadNibbleIndex (s : State) : (countDraw s).loadNibbleIndex = s.loadNibbleIndex := rfl
@[simp] theorem countDraw_addressValid (s : State) : (countDraw s).addressValid = s.addressValid := rfl
@[simp] theorem countDraw_transferActive (s : State) : (countDraw s).transferActive = s.transferActive := rfl
@[simp] theorem countDraw_bitCursor (s : State) : (countDraw s).bitCursor = s.bitCursor := rfl
@[simp] theorem countDraw_currentByte (s : State) : (countDraw s).currentByte = s.currentByte := rfl
@[simp] theorem countDraw_bankOwnsBus (s : State) : (countDraw s).bankOwnsBus = s.bankOwnsBus := rfl
@[simp] theorem countDraw_readEdgeSel (s : State) : (countDraw s).readEdgeSel = s.readEdgeSel := rfl
@[simp] theorem countDraw_lineDriven (s : State) : (countDraw s).lineDriven = s.lineDriven := rfl
@[simp] theorem countDraw_lineLevel (s : State) : (countDraw s).lineLevel = s.lineLevel := rfl
@[simp] theorem countDraw_readPending (s : State) : (countDraw s).readPending = s.readPending := rfl
@[simp] theorem countDraw_loadPending (s : State) : (countDraw s).loadPending = s.loadPending := rfl
@[simp] theorem countDraw_config (s : State) : (countDraw s).config = s.config := rfl
@[simp] theorem countDraw_inputs (s : State) : (countDraw s).inputs = s.inputs := rfl
@[simp] theorem countDraw_draws (s : State) : (countDraw s).draws = s.draws + 1 := rfl

/-! `cancelSession` -/

@[simp] theorem cancelSession_address (s : State) : (cancelSession s).address = s.address := rfl
@[simp] theorem cancelSession_bankSelect (s : State) : (cancelSession s).bankSelect = s.bankSelect := rfl
@[simp] theorem cancelSession_loadNibbleIndex (s : State) : (cancelSession s).loadNibbleIndex = s.loadNibbleIndex := rfl
@[simp] theorem cancelSession_addressValid (s : State) : (cancelSession s).addressValid = s.addressValid := rfl
@[simp] theorem cancelSession_transferActive (s : State) : (cancelSession s).transferActive = false := rfl
@[simp] theorem cancelSession_bitCursor (s : State) : (cancelSession s).bitCursor = s.bitCursor := rfl
@[simp] theorem cancelSession_currentByte (s : State) : (cancelSession s).currentByte = s.currentByte := rfl
@[simp] theorem cancelSession_bankOwnsBus (s : State) : (cancelSession s).bankOwnsBus = false := rfl
@[simp] theorem cancelSession_readEdgeSel (s : State) : (cancelSession s).readEdgeSel = s.readEdgeSel := rfl
@[simp] theorem cancelSession_lineDriven (s : State) : (cancelSession s).lineDriven = false := rfl
@[simp] theorem cancelSession_lineLevel (s : State) : (cancelSession s).lineLevel = s.lineLevel := rfl
@[simp] theorem cancelSession_readPending (s : State) : (cancelSession s).readPending = s.readPending := rfl
@[simp] theorem cancelSession_loadPending (s : State) : (cancelSession s).loadPending = s.loadPending := rfl
@[simp] theorem cancelSession_config (s : State) : (cancelSession s).config = s.config := rfl
@[simp] theorem cancelSession_inputs (s : State) : (cancelSession s).inputs = s.inputs := rfl
@[simp] theorem cancelSession_draws (s : State) : (cancelSession s).draws = s.draws := rfl

/-! `takeInput` -/

@[simp] theorem takeInput_address (r : List Input) (s : State) : (takeInput r s).address = s.address := rfl
@[simp] theorem takeInput_bankSelect (r : List Input) (s : State) : (takeInput r s).bankSelect = s.bankSelect := rfl
@[simp] theorem takeInput_loadNibbleIndex (r : List Input) (s : State) : (takeInput r s).loadNibbleIndex = s.loadNibbleIndex := rfl
@[simp] theorem takeInput_addressValid (r : List Input) (s : State) : (takeInput r s).addressValid = s.addressValid := rfl
@[simp] theorem takeInput_transferActive (r : List Input) (s : State) : (takeInput r s).transferActive = s.transferActive := rfl
@[simp] theorem takeInput_bitCursor (r : List Input) (s : State) : (takeInput r s).bitCursor = s.bitCursor := rfl
@[simp] theorem takeInput_currentByte (r : List Input) (s : State) : (takeInput r s).currentByte = s.currentByte := rfl
@[simp] theorem takeInput_bankOwnsBus (r : List Input) (s : State) : (takeInput r s).bankOwnsBus = s.bankOwnsBus := rfl
@[simp] theorem takeInput_readEdgeSel (r : List Input) (s : State) : (takeInput r s).readEdgeSel = s.readEdgeSel := rfl
@[simp] theorem takeInput_lineDriven (r : List Input) (s : State) : (takeInput r s).lineDriven = s.lineDriven := rfl
@[simp] theorem takeInput_lineLevel (r : List Input) (s : State) : (takeInput r s).lineLevel = s.lineLevel := rfl
@[simp] theorem takeInput_readPending (r : List Input) (s : State) : (takeInput r s).readPending = s.readPending := rfl
@[simp] theorem takeInput_loadPending (r : List Input) (s : State) : (takeInput r s).loadPending = s.loadPending := rfl
@[simp] theorem takeInput_config (r : List Input) (s : State) : (takeInput r s).config = s.config := rfl
@[simp] theorem takeInput_inputs (r : List Input) (s : State) : (takeInput r s).inputs = r := rfl
@[simp] theorem takeInput_draws (r : List Input) (s : State) : (takeInput r s).draws = s.draws := rfl

/-! `resetDevice` -/

@[simp] theorem resetDevice_address (s : State) : (resetDevice s).address = 0 := rfl
@[simp] theorem resetDevice_bankSelect (s : State) : (resetDevice s).bankSelect = 0 := rfl
@[simp] theorem resetDevice_loadNibbleIndex (s : State) : (resetDevice s).loadNibbleIndex = 0 := rfl
@[simp] theorem resetDevice_addressValid (s : State) : (resetDevice s).addressValid = false := rfl
@[simp] theorem resetDevice_transferActive (s : State) : (resetDevice s).transferActive = false := rfl
@[simp] theorem resetDevice_bitCursor (s : State) : (resetDevice s).bitCursor = 0 := rfl
@[simp] theorem resetDevice_currentByte (s : State) : (resetDevice s).currentByte = 0 := rfl
@[simp] theorem resetDevice_bankOwnsBus (s : State) : (resetDevice s).bankOwnsBus = false := rfl
@[simp] theorem resetDevice_readEdgeSel (s : State) : (resetDevice s).readEdgeSel = .awaitingStart := rfl
@[simp] theorem resetDevice_lineDriven (s : State) : (resetDevice s).lineDriven = false := rfl
@[simp] theorem resetDevice_lineLevel (s : State) : (resetDevice s).lineLevel = Config.freeLineLevel s.config.bankId s.draws := rfl
@[simp] theorem resetDevice_readPending (s : State) : (resetDevice s).readPending = false := rfl
@[simp] theorem resetDevice_loadPending (s : State) : (resetDevice s).loadPending = false := rfl
@[simp] theorem resetDevice_config (s : State) : (resetDevice s).config = s.config := rfl
@[simp] theorem resetDevice_inputs (s : State) : (resetDevice s).inputs = s.inputs := rfl
@[simp] theorem resetDevice_draws (s : State) : (resetDevice s).draws = s.draws + 1 := rfl

/-! The conditional updates: the fields that no branch writes. -/

@[simp] theorem fetch_address (s : State) : (fetch s).address = s.address := by
  unfold fetch; split <;> rfl
@[simp] theorem fetch_bankSelect (s : State) : (fetch s).bankSelect = s.bankSelect := by
  unfold fetch; split <;> rfl
@[simp] theorem fetch_loadNibbleIndex (s : State) : (fetch s).loadNibbleIndex = s.loadNibbleIndex := by
  unfold fetch; split <;> rfl
@[simp] theorem fetch_addressValid (s : State) : (fetch s).addressValid = s.addressValid := by
  unfold fetch; split <;> rfl
@[simp] theorem fetch_transferActive (s : State) : (fetch s).transferActive = s.transferActive := by
  unfold fetch; split <;> rfl
@[simp] theorem fetch_bitCursor (s : State) : (fetch s).bitCursor = s.bitCursor := by
  unfold fetch; split <;> rfl
@[simp] theorem fetch_readEdgeSel (s : State) : (fetch s).readEdgeSel = s.readEdgeSel := by
  unfold fetch; split <;> rfl
@[simp] theorem fetch_lineDriven (s : State) : (fetch s).lineDriven = s.lineDriven := by
  unfold fetch; split <;> rfl
@[simp] theorem fetch_lineLevel (s : State) : (fetch s).lineLevel = s.lineLevel := by
  unfold fetch; split <;> rfl
@[simp] theorem fetch_readPending (s : State) : (fetch s).readPending = s.readPending := by
  unfold fetch; split <;> rfl
@[simp] theorem fetch_loadPending (s : State) : (fetch s).loadPending = s.loadPending := by
  unfold fetch; split <;> rfl
@[simp] theorem fetch_config (s : State) : (fetch s).config = s.config := by
  unfold fetch; split <;> rfl
@[simp] theorem fetch_inputs (s : State) : (fetch s).inputs = s.inputs := by
  unfold fetch; split <;> rfl
@[simp] theorem fetch_draws (s : State) : (fetch s).draws = s.draws := by
  unfold fetch; split <;> rfl

@[simp] theorem followOwnership_address (s : State) : (followOwnership s).address = s.address := by
  unfold followOwnership; repeat' split <;> try rfl
@[simp] theorem followOwnership_bankSelect (s : State) : (followOwnership s).bankSelect = s.bankSelect := by
  unfold followOwnership; repeat' split <;> try rfl
@[simp] theorem followOwnership_loadNibbleIndex (s : State) : (followOwnership s).loadNibbleIndex = s.loadNibbleIndex := by
  unfold followOwnership; repeat' split <;> try rfl
@[simp] theorem followOwnership_addressValid (s : State) : (followOwnership s).addressValid = s.addressValid := by
  unfold followOwnership; repeat' split <;> try rfl
@[simp] theorem followOwnership_transferActive (s : State) : (followOwnership s).transferActive = s.transferActive := by
  unfold followOwnership; repeat' split <;> try rfl
@[simp] theorem followOwnership_bitCursor (s : State) : (followOwnership s).bitCursor = s.bitCursor := by
  unfold followOwnership; repeat' split <;> try rfl
@[simp] theorem followOwnership_currentByte (s : State) : (followOwnership s).currentByte = s.currentByte := by
  unfold followOwnership; repeat' split <;> try rfl
@[simp] theorem followOwnership_bankOwnsBus (s : State) : (followOwnership s).bankOwnsBus = s.bankOwnsBus := by
  unfold followOwnership; repeat' split <;> try rfl
@[simp] theorem followOwnership_readEdgeSel (s : State) : (followOwnership s).readEdgeSel = s.readEdgeSel := by
  unfold followOwnership; repeat' split <;> try rfl
@[simp] theorem followOwnership_lineLevel (s : State) : (followOwnership s).lineLevel = s.lineLevel := by
  unfold followOwnership; repeat' split <;> try rfl
@[simp] theorem followOwnership_readPending (s : State) : (followOwnership s).readPending = s.readPending := by
  unfold followOwnership; repeat' split <;> try rfl
@[simp] theorem followOwnership_loadPending (s : State) : (followOwnership s).loadPending = s.loadPending := by
  unfold followOwnership; repeat' split <;> try rfl
@[simp] theorem followOwnership_config (s : State) : (followOwnership s).config = s.config := by
  unfold followOwnership; repeat' split <;> try rfl
@[simp] theorem followOwnership_inputs (s : State) : (followOwnership s).inputs = s.inputs := by
  unfold followOwnership; repeat' split <;> try rfl
@[simp] theorem followOwnership_draws (s : State) : (followOwnership s).draws = s.draws := by
  unfold followOwnership; repeat' split <;> try rfl

@[simp] theorem presentBit_address (s : State) : (presentBit s).address = s.address := by
  unfold presentBit; repeat' split <;> try rfl
@[simp] theorem presentBit_bankSelect (s : State) : (presentBit s).bankSelect = s.bankSelect := by
  unfold presentBit; repeat' split <;> try rfl
@[simp] theorem presentBit_loadNibbleIndex (s : State) : (presentBit s).loadNibbleIndex = s.loadNibbleIndex := by
  unfold presentBit; repeat' split <;> try rfl
@[simp] theorem presentBit_addressValid (s : State) : (presentBit s).addressValid = s.addressValid := by
  unfold presentBit; repeat' split <;> try rfl
@[simp] theorem presentBit_transferActive (s : State) : (presentBit s).transferActive = s.transferActive := by
  unfold presentBit; repeat' split <;> try rfl
@[simp] theorem presentBit_bitCursor (s : State) : (presentBit s).bitCursor = s.bitCursor := by
  unfold presentBit; repeat' split <;> try rfl
@[simp] theorem presentBit_currentByte (s : State) : (presentBit s).currentByte = s.currentByte := by
  unfold presentBit; repeat' split <;> try rfl
@[simp] theorem presentBit_bankOwnsBus (s : State) : (presentBit s).bankOwnsBus = s.bankOwnsBus := by
  unfold presentBit; repeat' split <;> try rfl
@[simp] theorem presentBit_readEdgeSel (s : State) : (presentBit s).readEdgeSel = s.readEdgeSel := by
  unfold presentBit; repeat' split <;> try rfl
@[simp] theorem presentBit_lineDriven (s : State) : (presentBit s).lineDriven = s.lineDriven := by
  unfold presentBit; repeat' split <;> try rfl
@[simp] theorem presentBit_readPending (s : State) : (presentBit s).readPending = s.readPending := by
  unfold presentBit; repeat' split <;> try rfl
@[simp] theorem presentBit_loadPending (s : State) : (presentBit s).loadPending = s.loadPending := by
  unfold presentBit; repeat' split <;> try rfl
@[simp] theorem presentBit_config (s : State) : (presentBit s).config = s.config := by
  unfold presentBit; repeat' split <;> try rfl
@[simp] theorem presentBit_inputs (s : State) : (presentBit s).inputs = s.inputs := by
  unfold presentBit; repeat' split <;> try rfl
@[simp] theorem presentBit_draws (s : State) : (presentBit s).draws = s.draws := by
  unfold presentBit; repeat' split <;> try rfl

@[simp] theorem advanceCursor_bankSelect (s : State) : (advanceCursor s).bankSelect = s.bankSelect := by
  unfold advanceCursor; split
  · exact fetch_bankSelect _
  · rfl
@[simp] theorem advanceCursor_loadNibbleIndex (s : State) : (advanceCursor s).loadNibbleIndex = s.loadNibbleIndex := by
  unfold advanceCursor; split
  · exact fetch_loadNibbleIndex _
  · rfl
@[simp] theorem advanceCursor_addressValid (s : State) : (advanceCursor s).addressValid = s.addressValid := by
  unfold advanceCursor; split
  · exact fetch_addressValid _
  · rfl
@[simp] theorem advanceCursor_transferActive (s : State) : (advanceCursor s).transferActive = s.transferActive := by
  unfold advanceCursor; split
  · exact fetch_transferActive _
  · rfl
@[simp] theorem advanceCursor_readEdgeSel (s : State) : (advanceCursor s).readEdgeSel = s.readEdgeSel := by
  unfold advanceCursor; split
  · exact fetch_readEdgeSel _
  · rfl
@[simp] theorem advanceCursor_lineDriven (s : State) : (advanceCursor s).lineDriven = s.lineDriven := by
  unfold advanceCursor; split
  · exact fetch_lineDriven _
  · rfl
@[simp] theorem advanceCursor_lineLevel (s : State) : (advanceCursor s).lineLevel = s.lineLevel := by
  unfold advanceCursor; split
  · exact fetch_lineLevel _
  · rfl
@[simp] theorem advanceCursor_readPending (s : State) : (advanceCursor s).readPending = s.readPending := by
  unfold advanceCursor; split
  · exact fetch_readPending _
  · rfl
@[simp] theorem advanceCursor_loadPending (s : State) : (advanceCursor s).loadPending = s.loadPending := by
  unfold advanceCursor; split
  · exact fetch_loadPending _
  · rfl
@[simp] theorem advanceCursor_config (s : State) : (advanceCursor s).config = s.config := by
  unfold advanceCursor; split
  · exact fetch_config _
  · rfl
@[simp] theorem advanceCursor_inputs (s : State) : (advanceCursor s).inputs = s.inputs := by
  unfold advanceCursor; split
  · exact fetch_inputs _
  · rfl
@[simp] theorem advanceCursor_draws (s : State) : (advanceCursor s).draws = s.draws := by
  unfold advanceCursor; split
  · exact fetch_draws _
  · rfl

@[simp] theorem accumulate_transferActive (n : Nibble) (s : State) : (accumulate n s).transferActive = s.transferActive := by
  unfold accumulate; dsimp only; split <;> rfl
@[simp] theorem accumulate_bitCursor (n : Nibble) (s : State) : (accumulate n s).bitCursor = s.bitCursor := by
  unfold accumulate; dsimp only; split <;> rfl
@[simp] theorem accumulate_currentByte (n : Nibble) (s : State) : (accumulate n s).currentByte = s.currentByte := by
  unfold accumulate; dsimp only; split <;> rfl
@[simp] theorem accumulate_bankOwnsBus (n : Nibble) (s : State) : (accumulate n s).bankOwnsBus = s.bankOwnsBus := by
  unfold accumulate; dsimp only; split <;> rfl
@[simp] theorem accumulate_readEdgeSel (n : Nibble) (s : State) : (accumulate n s).readEdgeSel = s.readEdgeSel := by
  unfold accumulate; dsimp only; split <;> rfl
@[simp] theorem accumulate_lineDriven (n : Nibble) (s : State) : (accumulate n s).lineDriven = s.lineDriven := by
  unfold accumulate; dsimp only; split <;> rfl
@[simp] theorem accumulate_lineLevel (n : Nibble) (s : State) : (accumulate n s).lineLevel = s.lineLevel := by
  unfold accumulate; dsimp only; split <;> rfl
@[simp] theorem accumulate_readPending (n : Nibble) (s : State) : (accumulate n s).readPending = s.readPending := by
  unfold accumulate; dsimp only; split <;> rfl
@[simp] theorem accumulate_loadPending (n : Nibble) (s : State) : (accumulate n s).loadPending = s.loadPending := by
  unfold accumulate; dsimp only; split <;> rfl
@[simp] theorem accumulate_config (n : Nibble) (s : State) : (accumulate n s).config = s.config := by
  unfold accumulate; dsimp only; split <;> rfl
@[simp] theorem accumulate_inputs (n : Nibble) (s : State) : (accumulate n s).inputs = s.inputs := by
  unfold accumulate; dsimp only; split <;> rfl
@[simp] theorem accumulate_draws (n : Nibble) (s : State) : (accumulate n s).draws = s.draws := by
  unfold accumulate; dsimp only; split <;> rfl

end Sys2Proof.Machine
end

