-- ==== Sys2Proof/Laws/Ops.lean ====
section
/-! SUPPORT. What each shared operation can do, said once: the provers cite these instead of unfolding the operations. -/

namespace Sys2Proof.Machine

/-- `Fetch()` as one update: the flag is whether the device owns `address`. -/
theorem fetch_eq (s : State) :
    fetch s = { s with
      bankOwnsBus := ownsAddress s.config s.address
      currentByte := if ownsAddress s.config s.address = true then s.config.rom.read (offsetOf s.address) else 0xFF } := by
  unfold fetch
  cases h : ownsAddress s.config s.address <;> rfl

theorem fetch_bankOwnsBus (s : State) : (fetch s).bankOwnsBus = ownsAddress s.config s.address := by rw [fetch_eq]

theorem fetch_currentByte (s : State) :
    (fetch s).currentByte =
      if ownsAddress s.config s.address = true then s.config.rom.read (offsetOf s.address) else 0xFF := by rw [fetch_eq]

/-- The "net effect" of R109 step 1: `lineDriven <- bankOwnsBus`. -/
theorem followOwnership_eq (s : State) : followOwnership s = { s with lineDriven := s.bankOwnsBus } := by
  cases s with
  | mk a bs li av ta bc cb ob re ld ll rp lp c i d =>
    cases ob <;> cases ld <;> rfl

/-- R109 step 2 as one update. -/
theorem presentBit_eq (s : State) :
    presentBit s = { s with lineLevel := if s.bankOwnsBus = true then selectedBit s else s.lineLevel } := by
  unfold presentBit
  split
  · split <;> simp_all [driveHigh, driveLow]
  · rfl

theorem completesLoad_iff (k : Fin 5) : completesLoad k = true ↔ k = 4 := by
  revert k; decide

theorem completesByte_iff (k : Fin 8) : completesByte k = true ↔ k = 7 := by
  revert k; decide

/-- R109 steps 3 and 4 inside a byte. -/
theorem advanceCursor_inside {s : State} (h : s.bitCursor ≠ 7) :
    advanceCursor s = { s with bitCursor := s.bitCursor + 1 } := by
  unfold advanceCursor
  rw [if_neg (by rw [completesByte_iff]; exact h)]

/-- R109 steps 3 and 4 at bit 7. -/
theorem advanceCursor_last {s : State} (h : s.bitCursor = 7) :
    advanceCursor s = fetch { s with bitCursor := 0, address := nextAddress s.address } := by
  unfold advanceCursor
  rw [if_pos (by rw [completesByte_iff]; exact h)]

/-- R95 steps 4 to 7 for a nibble that is not the fifth. -/
theorem accumulate_partial (n : Nibble) {s : State} (h : s.loadNibbleIndex ≠ 4) :
    accumulate n s = { s with
      addressValid := false
      loadNibbleIndex := s.loadNibbleIndex + 1
      address := accumulated n s } := by
  unfold accumulate
  dsimp only
  rw [if_neg (by rw [completesLoad_iff]; exact h)]

/-- R95 steps 4 to 7 for the fifth nibble. -/
theorem accumulate_last (n : Nibble) {s : State} (h : s.loadNibbleIndex = 4) :
    accumulate n s = { s with
      addressValid := true
      loadNibbleIndex := 0
      bankSelect := bankOf (accumulated n s)
      address := maskTo18 (accumulated n s) } := by
  unfold accumulate
  dsimp only
  rw [if_pos (by rw [completesLoad_iff]; exact h)]

/-- An address that is owned is of the device's bank, whatever `TOP_WRAP` is. -/
theorem bankOf_of_ownsAddress {w : Nat} {c : Config} {a : BitVec w} (h : ownsAddress c a = true) : bankOf a = c.bankId := by
  unfold ownsAddress at h
  split at h
  · exact eq_of_beq h
  · exact eq_of_beq (Bool.and_eq_true _ _ ▸ h).1

/-- With no event pending an event word runs the command it decodes to. -/
theorem applyEvent_of_clear {s : State} {w : EventByte} (h : LatchesClear s) :
    applyEvent w s = match decode (decodeCtx s) w with
      | .error e => .refused (.badEventWord e)
      | .ok i => exec i s := by
  unfold applyEvent
  cases decode (decodeCtx s) w with
  | error e => rfl
  | ok i => simp [somethingPending, h.1, h.2]

/-- What a capture can do: it sets one latch, or nothing; it never faults. -/
theorem captureEdges_cases {i : Instr} {s t : State} (h : captureEdges i s = .next t) :
    t = latchLoad s ∨ t = latchRead s ∨ t = s := by
  cases i with
  | la n => injection h with h; exact .inl h.symm
  | rdDummy x => injection h with h; exact .inr (.inl h.symm)
  | rdStart x => injection h with h; exact .inr (.inl h.symm)
  | rdClk x => injection h with h; exact .inr (.inl h.symm)
  | rdIgnS x => injection h with h; exact .inr (.inr h.symm)
  | rdIgnC x => injection h with h; exact .inr (.inr h.symm)
  | noedge x => injection h with h; exact .inr (.inr h.symm)
  | ia p n => injection h

/-- What a dispatch can do: nothing, or one of the two handlers, its latch cleared, with a draw counted or not. -/
theorem dispatch_cases (ad : Nibble) (s : State) :
    (dispatch ad s = .next s ∧ LatchesClear s) ∨
      (s.loadPending = true ∧ (dispatch ad s = dispatchLoad ad s ∨ dispatch ad s = dispatchLoad ad (countDraw s))) ∨
      (s.readPending = true ∧ (dispatch ad s = dispatchRead ad s ∨ dispatch ad s = dispatchRead ad (countDraw s))) := by
  unfold dispatch
  cases hl : s.loadPending with
  | false =>
    cases hr : s.readPending with
    | false => exact .inl ⟨rfl, hl, hr⟩
    | true => exact .inr (.inr ⟨rfl, .inl rfl⟩)
  | true =>
    cases hr : s.readPending with
    | false => exact .inr (.inl ⟨rfl, .inl rfl⟩)
    | true =>
      dsimp only
      split
      · exact .inr (.inl ⟨rfl, .inr rfl⟩)
      · exact .inr (.inr ⟨rfl, .inr rfl⟩)

end Sys2Proof.Machine
end

