-- ==== Sys2Proof/Laws/PerInstr.lean ====
section
/-! SUPPORT. Statements for every command, one lemma per constructor. The family RoundTrip: decoding the encoding of a command, in any
combination of the state bits that selects it, gives the command back. -/

namespace Sys2Proof.Laws.RoundTrip

/-- Decoding the encoding of `i` gives `i`, wherever `i` is selected. -/
def Statement (i : Instr) : Prop :=
  ∀ c : DecodeCtx, i.selectedIn c = true → decode c (encode i) = .ok i

theorem la (n : Nibble) : Statement (.la n) := by
  rintro ⟨r, a, v⟩
  revert n; cases r <;> cases a <;> cases v <;> decide

theorem rdDummy (x : Nibble) : Statement (.rdDummy x) := by
  rintro ⟨r, a, v⟩
  revert x; cases r <;> cases a <;> cases v <;> decide

theorem rdStart (x : Nibble) : Statement (.rdStart x) := by
  rintro ⟨r, a, v⟩
  revert x; cases r <;> cases a <;> cases v <;> decide

theorem rdIgnS (x : Nibble) : Statement (.rdIgnS x) := by
  rintro ⟨r, a, v⟩
  revert x; cases r <;> cases a <;> cases v <;> decide

theorem rdClk (x : Nibble) : Statement (.rdClk x) := by
  rintro ⟨r, a, v⟩
  revert x; cases r <;> cases a <;> cases v <;> decide

theorem rdIgnC (x : Nibble) : Statement (.rdIgnC x) := by
  rintro ⟨r, a, v⟩
  revert x; cases r <;> cases a <;> cases v <;> decide

theorem ia (p : Bool) (n : Nibble) : Statement (.ia p n) := by
  rintro ⟨r, a, v⟩
  revert n; cases p <;> cases r <;> cases a <;> cases v <;> decide

theorem noedge (x : Nibble) : Statement (.noedge x) := by
  rintro ⟨r, a, v⟩
  revert x; cases r <;> cases a <;> cases v <;> decide

end Sys2Proof.Laws.RoundTrip
end

