-- ==== Sys2Proof/Tests/Slice0.lean ====
section
/-! SUPPORT. Small tests. Expected values are those of spec/95_test_vectors.md (the vector's number stands in the comment) or of the rule
named; and, for every statement of Certificates/Slice0/Obligations.lean that has hypotheses, a witness that they can be met together. -/

namespace Sys2Proof.Tests

open Sys2Proof.Machine

/-! ### Helpers -/

/-- What a next state shows, or nothing for a fault or a refusal. -/
def shown {σ α : Type} (o : Host.Outcome σ Fault Refusal) (f : σ → α) : Option α :=
  match o with
  | .next s => some (f s)
  | .fault _ => none
  | .refused _ => none

/-- The refusal, if there is one. -/
def refusal {σ : Type} (o : Host.Outcome σ Fault Refusal) : Option Refusal :=
  match o with
  | .refused r => some r
  | .next _ => none
  | .fault _ => none

/-- The bytes of the spec's test ROM T that the vectors use (95_test_vectors.md, conventions). -/
def romT : Memory := [(0, 0xA5), (1, 0xA8), (2, 0xAB), (0x3FFF, 0xA2)]

/-- The bytes of the spec's test ROM U that the vectors use. -/
def romU : Memory := [(0, 0x3C), (1, 0x41)]

/-- A device's constants. -/
def device (bank : Bank) (rom : Memory) : Config := { configAtReset with bankId := bank, rom := rom }

/-- A device after reset. -/
def fresh (c : Config) : State := { State.reset with config := c }

/-- A device in the middle of a load. -/
def loadingAt (c : Config) (a : BitVec addrW) (k : Fin 5) (bank : Bank) : State :=
  { fresh c with address := a, loadNibbleIndex := k, bankSelect := bank }

/-- A device with a valid address and no session. -/
def armedAt (c : Config) (a : BitVec addrW) : State :=
  { fresh c with address := a, addressValid := true, bankSelect := bankOf a }

/-- A device in a session, `k` clock pulses into a byte. -/
def sessionAt (c : Config) (a : BitVec addrW) (k : Fin 8) : State :=
  { fetch { armedAt c a with transferActive := true } with
    bitCursor := k
    readEdgeSel := .awaitingClock
    lineDriven := decide (k ≠ 0) && ownsAddress c a }

/-- One event of the host. -/
def eventStep (w : EventByte) (s : State) : Host.Outcome State Fault Refusal := step { s with inputs := [.event w] }

def deviceX : Config := device 2 romT

/-! ### Well-formedness: an ill-formed term for each check -/

theorem test_wellFormed_refuses_polarity_without_edge : EventFields.wellFormed ⟨true, false, true, 0⟩ = false := by decide
theorem test_coherent_refuses_clock_outside_session : DecodeCtx.coherent ⟨.awaitingClock, false, true⟩ = false := by decide
theorem test_coherent_refuses_start_inside_session : DecodeCtx.coherent ⟨.awaitingStart, true, true⟩ = false := by decide
theorem test_coherent_refuses_session_without_address : DecodeCtx.coherent ⟨.awaitingClock, true, false⟩ = false := by decide
theorem test_selectedIn_refuses_dummy_when_valid : Instr.selectedIn ⟨.awaitingStart, false, true⟩ (.rdDummy 0) = false := by decide
theorem test_selectedIn_refuses_start_when_not_valid : Instr.selectedIn ⟨.awaitingStart, false, false⟩ (.rdStart 0) = false := by
  decide
theorem test_selectedIn_refuses_ignS_when_armed : Instr.selectedIn ⟨.awaitingStart, false, true⟩ (.rdIgnS 0) = false := by decide
theorem test_selectedIn_refuses_clk_outside_session : Instr.selectedIn ⟨.awaitingStart, false, true⟩ (.rdClk 0) = false := by decide
theorem test_selectedIn_refuses_ignC_in_session : Instr.selectedIn ⟨.awaitingClock, true, true⟩ (.rdIgnC 0) = false := by decide

/-! ### Decoding: the words of 30_encoding.md R60 to R67, written bit by bit -/

theorem test_decode_LA : decode ⟨.awaitingStart, false, false⟩ 0b01001010#8 = .ok (.la 0b1010) := by decide
theorem test_decode_DUMMY : decode ⟨.awaitingStart, false, false⟩ 0b00100000#8 = .ok (.rdDummy 0) := by decide
theorem test_decode_START : decode ⟨.awaitingStart, false, true⟩ 0b00100000#8 = .ok (.rdStart 0) := by decide
theorem test_decode_IGN_S : decode ⟨.awaitingClock, true, true⟩ 0b00100110#8 = .ok (.rdIgnS 0b0110) := by decide
theorem test_decode_CLK : decode ⟨.awaitingClock, true, true⟩ 0b00110000#8 = .ok (.rdClk 0) := by decide
theorem test_decode_IGN_C : decode ⟨.awaitingStart, false, true⟩ 0b00111001#8 = .ok (.rdIgnC 0b1001) := by decide
/-- V60, V61. -/
theorem test_decode_IA : decode ⟨.awaitingStart, false, false⟩ 0x63 = .ok (.ia false 3) ∧
    decode ⟨.awaitingClock, true, true⟩ 0x7F = .ok (.ia true 0xF) := by decide
/-- V62. -/
theorem test_decode_NOEDGE : decode ⟨.awaitingStart, false, false⟩ 0x05 = .ok (.noedge 5) := by decide
/-- V63. -/
theorem test_decode_malformed : decode ⟨.awaitingStart, false, false⟩ 0x15 = .error .polarityWithoutReadEdge ∧
    decode ⟨.awaitingStart, false, false⟩ 0x55 = .error .polarityWithoutReadEdge ∧
    decode ⟨.awaitingStart, false, false⟩ 0xC0 = .error .notSevenBits := by decide
theorem test_decodeTableWord : decodeTableWord 8 0x4C = some (.la 0xC) ∧ decodeTableWord 8 0x20 = some (.rdDummy 0) ∧
    decodeTableWord 8 0x30 = some (.rdIgnC 0) ∧ decodeTableWord 8 0x10 = none := by decide
/-- V1: the trace notation's `LOADADDR` gives the vector's event words. -/
theorem test_loadAddr_words : loadAddr 0x14321 = [0x41, 0x42, 0x43, 0x44, 0x41] := by decide

/-! ### One step of each command -/

/-- V7, last row. -/
theorem test_LA_fifth_nibble :
    shown (eventStep 0x41 (loadingAt deviceX 0x04321 4 0))
      (fun t => (t.address, t.loadNibbleIndex, t.addressValid, t.bankSelect)) = some (0x14321, 0, true, 5) := by decide

/-- V40: LA in a session, two bits into the byte 0xA5. -/
theorem test_LA_cancels_session :
    shown (eventStep 0x43 (sessionAt deviceX 0x08000 2))
      (fun t => (t.transferActive, dataOut t, t.address, t.loadNibbleIndex, t.bitCursor, t.currentByte)) =
        some (false, .released, 0x00003, 1, 2, 0xA5) := by decide

/-- V23: `bankSelect` is not reset. -/
theorem test_DUMMY_aborts_load :
    shown (eventStep 0x20 (loadingAt deviceX 0x000A9 2 5))
      (fun t => (t.address, t.loadNibbleIndex, t.addressValid, t.bankSelect)) = some (0, 0, false, 5) := by decide

/-- V30. -/
theorem test_START_in_bank :
    shown (eventStep 0x20 (armedAt deviceX 0x08000))
      (fun t => (t.transferActive, t.bitCursor, t.currentByte, t.bankOwnsBus, dataOut t, t.readEdgeSel)) =
        some (true, 0, 0xA5, true, .released, .awaitingClock) := by decide

/-- V31. -/
theorem test_START_bank_mismatch :
    shown (eventStep 0x20 (armedAt deviceX 0x14321))
      (fun t => (t.transferActive, t.currentByte, t.bankOwnsBus, dataOut t)) = some (true, 0xFF, false, .released) := by decide

/-- R109's example: bit 2 of 0xA5. -/
theorem test_CLK_puts_out_bit :
    shown (eventStep 0x30 (sessionAt deviceX 0x08000 2)) (fun t => (dataOut t, t.bitCursor)) = some (.driven true, 3) := by decide

/-- V70: the last bit of the bank's last byte. -/
theorem test_CLK_leaves_bank :
    shown (eventStep 0x30 (sessionAt deviceX 0x0BFFF 7))
      (fun t => (t.address, t.bankOwnsBus, t.currentByte, dataOut t)) = some (0x0C000, false, 0xFF, .driven true) := by decide

/-- V53. -/
theorem test_IGN_S_holds : shown (eventStep 0x20 (sessionAt deviceX 0x08000 2)) id = some (sessionAt deviceX 0x08000 2) := by decide

/-- V52. -/
theorem test_IGN_C_holds : shown (eventStep 0x30 (loadingAt deviceX 0x00777 3 0)) id = some (loadingAt deviceX 0x00777 3 0) := by
  decide

/-- V60. -/
theorem test_IA_refused : refusal (eventStep 0x63 (fresh deviceX)) = some .indirectAddress := by decide

/-- V62. -/
theorem test_NOEDGE_holds : shown (eventStep 0x05 (armedAt deviceX 0x08000)) id = some (armedAt deviceX 0x08000) := by decide

/-! ### The latches, `RESET`, the wires, the bus -/

/-- R83, R84: an RS edge that is captured and not dispatched runs nothing; its dispatch does. -/
theorem test_capture_then_dispatch :
    shown (captureWord wordRS (armedAt deviceX 0x08000)) (fun t => (t.readPending, t.transferActive)) = some (true, false) ∧
    shown (dispatch 0 { armedAt deviceX 0x08000 with readPending := true }) (fun t => (t.readPending, t.transferActive)) =
      some (false, true) := by decide

/-- R95 step 2: LA drops a pending READ event. -/
theorem test_LA_clears_pending_read :
    shown (exec (.la 1) { sessionAt deviceX 0x08000 2 with readPending := true }) (fun t => t.readPending) = some false := by decide

/-- V80, but for `lineLevel`, which the rule leaves unspecified. -/
theorem test_RESET :
    shown (step { sessionAt deviceX 0x08000 2 with readPending := true, inputs := [.reset 0x40] })
      (fun t => { t with lineLevel := false, draws := 0 }) = some (fresh deviceX) := by decide

/-- V11: the LOAD line's other polarity. -/
theorem test_other_load_polarity :
    shown (step { armedAt deviceX 0x08000 with inputs := [.edges ⟨some .falling, none, false, true, true, true⟩] }) id = some (armedAt deviceX 0x08000) := by
  decide

/-- P2, event 15: the hand-over; the bus carries bit 0 of 0x3C. -/
theorem test_bus_hand_over :
    shown (System.apply (.event wordRC)
        ⟨[{ sessionAt deviceX 0x0C000 0 with lineDriven := true, lineLevel := true }, sessionAt (device 3 romU) 0x0C000 0],
          .unknown, 0⟩)
      System.bus = some (.level false) := by decide

/-- R60, R80: a LOAD edge of the other polarity with a READ edge of clock polarity is the clock pulse, not IA. -/
theorem test_other_load_polarity_with_clock :
    shown (step { sessionAt deviceX 0x08000 2 with inputs := [.edges ⟨some .falling, some .falling, false, false, true, true⟩] })
      (fun t => (dataOut t, t.bitCursor)) = some (.driven true, 3) := by decide

/-- U3: with `TOP_WRAP` = `silent` the bank-0 device does not own 0x40000 (P4's remark). -/
theorem test_silent_top :
    ownsAddress { device 0 romU with topWrap := .silent } 0x40000#32 = false ∧ ownsAddress (device 0 romU) 0x40000#32 = true := by
  decide

/-- V74: the register wraps modulo 2^ADDR_W. -/
theorem test_address_wraps_at_width_20 : nextAddress 0xFFFFF#20 = 0 ∧ nextAddress 0xFFFFF#32 = 0x100000 := by decide

theorem test_test_roms_are_canonical : romT.wf = true ∧ romU.wf = true ∧ Memory.wf [(1, 0x11), (1, 0x12)] = false ∧
    Memory.wf [(1, 0x00)] = false ∧ Memory.wf [(0x4000, 0x11)] = false := by decide

theorem test_burn_reads_back : (Memory.burn romT 1 0x77).read 1 = 0x77 ∧ (Memory.burn romT 1 0x00).wf = true ∧
    (Memory.burn romT 5 0x01).read 2 = 0xAB := by decide

/-! ### Witnesses: the hypotheses of each statement can be met together -/

theorem witness_DecodeOfEncode : Instr.selectedIn ⟨.awaitingClock, true, true⟩ (.rdClk 9) = true ∧
    Instr.selectedIn ⟨.awaitingStart, false, true⟩ (.rdStart 0xF) = true := by decide

theorem witness_EncodeOfDecode : DecodeCtx.coherent ⟨.awaitingClock, true, true⟩ = true ∧
    decode ⟨.awaitingClock, true, true⟩ 0x39 = .ok (.rdClk 9) := by decide

theorem witness_DecoderIsTheTables : DecodeCtx.coherent ⟨.awaitingStart, false, false⟩ = true ∧ (0x7A#8).getLsbD 7 = false ∧
    decode ⟨.awaitingStart, false, false⟩ 0x7A = .ok (.ia true 0xA) := by decide

theorem witness_MalformedWordsAreRejected : (0x80#8).getLsbD 7 = true ∧
    ((0x5F#8).getLsbD 7 = false ∧ (0x5F#8).getLsbD 5 = false ∧ (0x5F#8).getLsbD 4 = true) ∧
    ((0x7F#8).getLsbD 7 = false ∧ (0x7F#8).getLsbD 5 = true) ∧ ((0x00#8).getLsbD 7 = false ∧ (0x00#8).getLsbD 4 = false) := by decide

theorem witness_EdgesBecomeEventWords : Polarity.falling ≠ deviceX.loadPol ∧ Polarity.falling ≠ deviceX.readStartPol := by decide

theorem witness_StepRunsDecodedCommand :
    ({ armedAt deviceX 0x08000 with inputs := [.event 0x20, .event 0x30] } : State).inputs = .event 0x20 :: [.event 0x30] ∧
    LatchesClear { armedAt deviceX 0x08000 with inputs := [.event 0x20, .event 0x30] } ∧
    decode (decodeCtx { armedAt deviceX 0x08000 with inputs := [.event 0x20, .event 0x30] }) 0x20 = .ok (.rdStart 0) := by decide

theorem witness_StepWithoutCommand : (fresh deviceX).inputs = [] ∧
    ({ fresh deviceX with inputs := [.event 0x15] } : State).inputs = .event 0x15 :: [] ∧
    decode (decodeCtx { fresh deviceX with inputs := [.event 0x15] }) 0x15 = .error .polarityWithoutReadEdge := by decide

theorem witness_AtomicEventStepFunction : LatchesClear (armedAt deviceX 0x08000) ∧ LatchesClear (sessionAt deviceX 0x08000 7) := by
  decide

/-- Log 19: an instant without an edge while a LOAD event is pending: the pending handler runs, with the nibble on the lines then (R90). -/
theorem test_event_while_load_pending :
    shown (applyEvent 0x07 { loadingAt deviceX 0x00001 1 0 with loadPending := true })
      (fun t => (t.address, t.loadNibbleIndex, t.loadPending)) = some (0x00071, 2, false) := by decide

theorem witness_InputsTakeEffectByKind :
    ({ fresh deviceX with inputs := [.capture 0x40, .dispatch 5] } : State).inputs = .capture 0x40 :: [.dispatch 5] := by decide

theorem witness_NibbleWeightsOfTheLines : LatchesClear (armedAt deviceX 0x08000) ∧ (armedAt deviceX 0x08000).loadNibbleIndex = 0 := by
  decide

theorem witness_DispatchOfPendingEvents :
    (({ fresh deviceX with loadPending := true } : State).loadPending = true ∧
      ({ fresh deviceX with loadPending := true } : State).readPending = false) ∧
    (({ fresh deviceX with readPending := true } : State).loadPending = false ∧
      ({ fresh deviceX with readPending := true } : State).readPending = true) ∧
    (({ fresh deviceX with readPending := true, loadPending := true } : State).loadPending = true ∧
      ({ fresh deviceX with readPending := true, loadPending := true } : State).readPending = true) := by decide

theorem witness_HostRulesNeverStop : LatchesClear (sessionAt deviceX 0x08000 7) ∧
    obeysHostRules (sessionAt deviceX 0x08000 7).config (.event 0x30) = true ∧
    obeysHostRules (sessionAt deviceX 0x08000 7).config (.edges ⟨some .rising, none, false, true, false, true⟩) = true ∧
    obeysHostRules (sessionAt deviceX 0x08000 7).config (.reset 0) = true := by decide

theorem witness_FiveNibblesLoadTheAddress : LatchesClear (sessionAt deviceX 0x08000 3) ∧
    (sessionAt deviceX 0x08000 3).loadNibbleIndex = 0 ∧
    ∀ w ∈ ([0x30, 0x3F] ++ [0x05] ++ [] ++ [0x30] : List EventByte),
      w.extractLsb' 4 4 = 0b0011#4 ∨ w.extractLsb' 4 4 = 0b0000#4 := by decide

theorem witness_NibbleRunCountsModuloFive : LatchesClear (fresh deviceX) ∧ (fresh deviceX).loadNibbleIndex = 0 ∧
    ([1, 2, 3, 4, 1, 9] : List Nibble) ≠ [] := by decide

theorem witness_SixthNibbleStartsOver : LatchesClear (armedAt deviceX 0x14321) ∧ (armedAt deviceX 0x14321).addressValid = true ∧
    ValidAtIndexZero (armedAt deviceX 0x14321) ∧ ([1, 2, 3] : List Nibble).length ≤ 3 := by decide

theorem witness_LoadAddressCancelsSession : StateInv (sessionAt deviceX 0x08000 7) ∧
    (sessionAt deviceX 0x08000 7).transferActive = true := by decide

theorem witness_FetchResolvesTheBank : (armedAt deviceX 0x08000).config.topWrap = .slice ∧
    (armedAt deviceX 0x08000).address.extractLsb' 14 4 = deviceX.bankId ∧
    (armedAt deviceX 0x0C000).address.extractLsb' 14 4 ≠ deviceX.bankId := by decide

theorem witness_SilentTopHasNoOwner :
    ({ device 0 romU with topWrap := .silent } : Config).topWrap = .silent ∧
    2 ^ 18 ≤ (armedAt { device 0 romU with topWrap := .silent } 0x40000).address.toNat ∧
    (armedAt { device 15 romU with topWrap := .silent } 0x3FFFF).address.toNat < 2 ^ 18 ∧
    (armedAt { device 15 romU with topWrap := .silent } 0x3FFFF).address.extractLsb' 14 4 = 15 ∧
    (armedAt { device 0 romU with topWrap := .silent } 0x3FFFF).address.extractLsb' 14 4 ≠ 0 := by decide

theorem witness_RomReadsItsCells : romT.wf = true ∧ ((0x3FFF#14).toNat, (0xA2 : Byte)) ∈ romT ∧
    romT.all (fun c => decide (c.1 ≠ (0x3FFE#14).toNat)) = true ∧ romT.read 0x3FFF = 0xA2 ∧ romT.read 0x3FFE = 0 := by decide

theorem witness_RomIsAnyFunctionOfTheOffset : Memory.wf [] = true ∧ ∀ o : Offset, Memory.read [] o = 0 :=
  ⟨rfl, fun _ => rfl⟩

theorem witness_ClockPulseShiftsOneBit : (sessionAt deviceX 0x08000 0).bitCursor ≠ 7 ∧ (sessionAt deviceX 0x08000 6).bitCursor ≠ 7 ∧
    (sessionAt deviceX 0x08000 7).bitCursor = 7 := by decide

theorem witness_SessionPutsOutTheRomBits : StateInv (armedAt deviceX 0x0BFFF) ∧ LatchesClear (armedAt deviceX 0x0BFFF) ∧
    phaseOf (armedAt deviceX 0x0BFFF) = .armed ∧ (armedAt deviceX 0x0BFFF).config.topWrap = .slice := by decide

theorem witness_ClockPulsesCountBitsAndBytes : StateInv (sessionAt deviceX 0x0BFFF 7) ∧ LatchesClear (sessionAt deviceX 0x0BFFF 7) ∧
    (sessionAt deviceX 0x0BFFF 7).transferActive = true := by decide

/-- The four situations of R124: stays in, leaves, enters, stays outside. -/
theorem witness_LineLagsOwnershipByOnePulse :
    (StateInv (sessionAt deviceX 0x08000 7) ∧ (sessionAt deviceX 0x08000 7).transferActive = true ∧
      (sessionAt deviceX 0x08000 7).bitCursor = 7) ∧
    StateInv (sessionAt deviceX 0x0BFFF 7) ∧ StateInv (sessionAt deviceX 0x07FFF 7) ∧ StateInv (sessionAt deviceX 0x14321 7) :=
  ⟨by decide, by decide, by decide, by decide⟩

theorem witness_SentinelIsNeverDriven : (sessionAt deviceX 0x14321 0).bankOwnsBus = false ∧
    StateInv (sessionAt deviceX 0x14321 0) ∧ LatchesClear (sessionAt deviceX 0x14321 0) ∧
    (sessionAt deviceX 0x14321 0).transferActive = true ∧ (sessionAt deviceX 0x14321 0).bitCursor = 0 ∧
    (sessionAt deviceX 0x14321 0).lineDriven = false := by decide

theorem witness_AddressGrowsPastTheTop : (sessionAt (device 15 romT) 0x3FFFF 7).config.topWrap = .slice ∧
    (sessionAt (device 15 romT) 0x3FFFF 7).bitCursor = 7 ∧ (sessionAt (device 15 romT) 0x3FFFF 7).address = 0x3FFFF ∧
    (sessionAt (device 0 romU) 0x3FFFF 7).config.bankId = 0 := by decide

theorem witness_StartEdgeAbortsLoad : StateInv (loadingAt deviceX 0x00001 1 0) ∧ StateInv (loadingAt deviceX 0x04321 4 0) ∧
    LatchesClear (loadingAt deviceX 0x04321 4 0) ∧ (loadingAt deviceX 0x04321 4 0).loadNibbleIndex ≠ 0 ∧
    shown (applyInput (.event 0x41) (loadingAt deviceX 0x04321 4 0)) (fun t => (t.loadNibbleIndex, t.addressValid)) =
      some (0, true) :=
  ⟨by decide, by decide, by decide, by decide, by decide⟩

theorem witness_TriggerEdgeSetsItsLatch :
    shown (exec (.la 5) { armedAt deviceX 0x08000 with readPending := true }) (fun t => t.readPending) = some false := by decide

theorem witness_BankSelectIsReadByNothing :
    shown (exec (.la 1) (loadingAt deviceX 0x04321 4 0)) (fun t => t.bankSelect) = some 5 := by decide

theorem witness_ReadEdgeIgnoresTheNibble : LatchesClear (sessionAt deviceX 0x08000 7) := by decide

theorem witness_CommandsLeaveInterfaceAlone : exec (.rdDummy 3) (fresh deviceX) = .next (fresh deviceX) := rfl

theorem witness_ConstantsNeverChange :
    step { fresh deviceX with inputs := [.event 0x00] } = .next (fresh deviceX) := rfl

theorem witness_DataLineChangesOnlyInLoadAndClock : (sessionAt deviceX 0x08000 0).lineDriven = false ∧
    (sessionAt deviceX 0x08000 1).lineDriven = true ∧
    shown (exec (.rdIgnS 0) (sessionAt deviceX 0x08000 1)) (fun t => dataOut t) =
      some (dataOut (sessionAt deviceX 0x08000 1)) := by decide

theorem witness_OnlyTheDataLineIsDriven : (0 : Fin 4) ≠ (sessionAt deviceX 0x08000 1).config.dataLine ∧
    (3 : Fin 4) = (sessionAt deviceX 0x08000 1).config.dataLine := by decide

theorem witness_WritersOfTheArmedPolarity : exec (.rdIgnC 0) (fresh deviceX) = .next (fresh deviceX) := rfl

theorem witness_OnlyFourCommandsAndResetChangeState : LatchesClear (fresh deviceX) ∧
    obeysHostRules (fresh deviceX).config (.event 0x41) = true ∧
    (shown (applyInput (.event 0x41) (fresh deviceX)) (fun t => decide (t ≠ fresh deviceX))) = some true := by decide

theorem witness_SessionEndsOnlyByLoadOrReset : StateInv (sessionAt deviceX 0x08000 7) ∧ LatchesClear (sessionAt deviceX 0x08000 7) ∧
    obeysHostRules (sessionAt deviceX 0x08000 7).config (.event 0x41) = true ∧
    (sessionAt deviceX 0x08000 7).transferActive = true ∧
    shown (applyInput (.event 0x41) (sessionAt deviceX 0x08000 7)) (fun t => t.transferActive) = some false := by decide

/-- A state of each phase, and the load's last nibble. -/
theorem witness_PhaseTransitions :
    (StateInv (fresh deviceX) ∧ LatchesClear (fresh deviceX) ∧ phaseOf (fresh deviceX) = .idle) ∧
    (StateInv (loadingAt deviceX 0x00777 3 0) ∧ phaseOf (loadingAt deviceX 0x00777 3 0) = .loading) ∧
    (StateInv (loadingAt deviceX 0x04321 4 0) ∧ phaseOf (loadingAt deviceX 0x04321 4 0) = .loading) ∧
    (StateInv (armedAt deviceX 0x08000) ∧ phaseOf (armedAt deviceX 0x08000) = .armed) ∧
    (StateInv (sessionAt deviceX 0x08000 7) ∧ LatchesClear (sessionAt deviceX 0x08000 7) ∧
      phaseOf (sessionAt deviceX 0x08000 7) = .session) :=
  ⟨by decide, by decide, by decide, by decide, by decide⟩

theorem witness_StaleLevelIsNeverPresented : (sessionAt deviceX 0x08000 0).lineDriven = false ∧
    (sessionAt deviceX 0x08000 0).lineLevel = false ∧
    shown (exec (.rdClk 0) (sessionAt deviceX 0x08000 0)) (fun t => t.lineLevel) = some true := by decide

theorem witness_StaleCursorAndByteAreNotSeen : (armedAt deviceX 0x08000).transferActive = false := by decide

theorem witness_HighAddressBitsAreNotSeen : (sessionAt deviceX 0x08000 7).config.topWrap = .slice ∧
    (0x48000 : BitVec addrW).extractLsb' 0 18 = (sessionAt deviceX 0x08000 7).address.extractLsb' 0 18 := by decide

theorem witness_AddressWidthDoesNotMatter : 20 ≤ 20 ∧ 20 ≤ 32 ∧
    (0xFFFFF#20).extractLsb' 0 18 = (0x3FFFF#32).extractLsb' 0 18 := by decide

theorem witness_EveryStepKeepsTheInvariant : StateInv { sessionAt deviceX 0x0BFFF 7 with inputs := [.event 0x30] } ∧
    shown (step { sessionAt deviceX 0x0BFFF 7 with inputs := [.event 0x30] }) (fun t => t.address) = some 0x0C000 := by decide

theorem witness_BusIsResolvedByDriverCount :
    (∀ d ∈ (⟨[sessionAt deviceX 0x14321 1, fresh deviceX], .one, 0⟩ : System).devices, dataOut d = .released) ∧
    (dataOut (sessionAt deviceX 0x08000 1) = .driven false ∧ ∀ e ∈ [fresh deviceX] ++ [fresh deviceX], dataOut e = .released) ∧
    dataOut (sessionAt (device 2 romU) 0x08000 1) = .driven false := by decide

theorem witness_BusInvariantAtReset : [deviceX, device 3 romU].Pairwise (fun c d => c.bankId ≠ d.bankId) ∧
    ∀ c ∈ [deviceX, device 3 romU], c.rom.wf = true := by decide

/-- Two devices in a session, at the last bit of X's last byte. -/
def pairAtBoundary : System := ⟨[sessionAt deviceX 0x0BFFF 7, sessionAt (device 3 romU) 0x0BFFF 7], .unknown, 0⟩

theorem witness_DevicesStayInLockstep : BusInv pairAtBoundary ∧ allowedWord wordRC = true := by decide

theorem witness_HandOverAtBankBoundary : BusInv pairAtBoundary ∧ deviceX.topWrap = .slice ∧ (device 3 romU).topWrap = .slice ∧
    (sessionAt deviceX 0x0BFFF 7).transferActive = true ∧ (sessionAt deviceX 0x0BFFF 7).bitCursor = 7 ∧
    bankOf (sessionAt deviceX 0x0BFFF 7).address = deviceX.bankId ∧ offsetOf (sessionAt deviceX 0x0BFFF 7).address = 0x3FFF ∧
    (device 3 romU).bankId = deviceX.bankId + 1 := by decide

theorem witness_UnownedBankFloats :
    BusInv ⟨[sessionAt deviceX 0x14321 1, sessionAt (device 3 romU) 0x14321 1], .zero, 0⟩ ∧
    ∀ d ∈ [sessionAt deviceX 0x14321 1, sessionAt (device 3 romU) 0x14321 1], d.transferActive = true ∧ d.bankOwnsBus = false := by
  decide

end Sys2Proof.Tests
end

/-! SUPPORT. Noninterference, once for every relation between states. A relation that the event sources and the commands keep, and
that fixes what the dispatch of an input reads, is kept by every step (spec 40_command_decoder.md R83 to R87). -/

namespace Sys2Proof.Machine

/-- Two outcomes agree up to `R`: related next states, or one and the same refusal. -/
inductive Agree (R : State → State → Prop) :
    Host.Outcome State Fault Refusal → Host.Outcome State Fault Refusal → Prop where
  | next {s t : State} (h : R s t) : Agree R (.next s) (.next t)
  | refused (r : Refusal) : Agree R (.refused r) (.refused r)

theorem Agree.cases {R : State → State → Prop} {o p : Host.Outcome State Fault Refusal} (h : Agree R o p) :
    (∃ s t, o = .next s ∧ p = .next t ∧ R s t) ∨ ∃ r, o = .refused r ∧ p = .refused r := by
  cases h with
  | next h => exact .inl ⟨_, _, rfl, rfl, h⟩
  | refused r => exact .inr ⟨r, rfl, rfl⟩

/-- Equality of what decides which handler an input runs and which free values it meets. -/
structure SameControl (s t : State) : Prop where
  ctx : decodeCtx t = decodeCtx s
  config : t.config = s.config
  loadPending : t.loadPending = s.loadPending
  readPending : t.readPending = s.readPending
  inputs : t.inputs = s.inputs
  draws : t.draws = s.draws

/-- The updates of the event sources, of the list of inputs and of the counter of free values. -/
inductive InterfaceOp : (State → State) → Prop where
  | latchLoad : InterfaceOp latchLoad
  | latchRead : InterfaceOp latchRead
  | clearLoadPending : InterfaceOp clearLoadPending
  | clearReadPending : InterfaceOp clearReadPending
  | countDraw : InterfaceOp countDraw
  | takeInput (rest : List Input) : InterfaceOp (takeInput rest)

/-- What makes the difference between `R`-related states invisible to a step. RD.CLK is asked for inside a session only, where the
decoder and the dispatch select it. -/
structure Unseen (R : State → State → Prop) : Prop where
  refl : ∀ s, R s s
  control : ∀ {s t}, R s t → SameControl s t
  interfaceOp : ∀ {s t f}, InterfaceOp f → R s t → R (f s) (f t)
  command : ∀ {s t} (i : Instr), R s t → ((∃ x, i = .rdClk x) → s.transferActive = true) → Agree R (exec i s) (exec i t)

theorem transferActive_of_readBranch {c : DecodeCtx} {n x : Nibble} (h : readBranch c n = .rdClk x) : c.transferActive = true := by
  unfold readBranch at h
  split at h
  · assumption
  · split at h <;> cases h

/-- RD.CLK is decoded in a session only (R68). -/
theorem transferActive_of_decode {c : DecodeCtx} {w : EventByte} {x : Nibble} (h : decode c w = .ok (.rdClk x)) :
    c.transferActive = true := by
  have edge {p : Bool} {n : Nibble} (h : decodeReadEdge c p n = .rdClk x) : c.transferActive = true := by
    unfold decodeReadEdge at h
    split at h
    · exact transferActive_of_readBranch h
    · cases h
    · cases h
    · exact transferActive_of_readBranch h
  unfold decode at h
  split at h
  · cases h
  · dsimp only at h
    split at h
    case h_2 => injection h with h; exact edge h
    all_goals cases h

theorem resetDevice_congr {s t : State} (h : SameControl s t) : resetDevice t = resetDevice s := by
  unfold resetDevice
  rw [h.config, h.inputs, h.draws]

section
variable {R : State → State → Prop} (hR : Unseen R) {s t : State} (h : R s t)
include hR h

theorem Unseen.captureEdges (i : Instr) : Agree R (captureEdges i s) (captureEdges i t) := by
  cases i with
  | la n => exact .next (hR.interfaceOp .latchLoad h)
  | rdDummy x => exact .next (hR.interfaceOp .latchRead h)
  | rdStart x => exact .next (hR.interfaceOp .latchRead h)
  | rdClk x => exact .next (hR.interfaceOp .latchRead h)
  | rdIgnS x => exact .next h
  | rdIgnC x => exact .next h
  | noedge x => exact .next h
  | ia p n => exact .refused _

theorem Unseen.dispatchLoad (ad : Nibble) : Agree R (dispatchLoad ad s) (dispatchLoad ad t) :=
  hR.command _ (hR.interfaceOp .clearLoadPending h) (by rintro ⟨x, hx⟩; cases hx)

theorem Unseen.dispatchRead (ad : Nibble) : Agree R (dispatchRead ad s) (dispatchRead ad t) := by
  unfold Machine.dispatchRead
  rw [(hR.control h).ctx]
  refine hR.command _ (hR.interfaceOp .clearReadPending h) ?_
  rintro ⟨x, hx⟩
  exact transferActive_of_readBranch hx

/-- Both states have the same latches set, and the free order of two handlers (R85) is the same in both. -/
theorem Unseen.dispatch (ad : Nibble) : Agree R (dispatch ad s) (dispatch ad t) := by
  have hc := hR.control h
  have hcount := hR.interfaceOp .countDraw h
  unfold Machine.dispatch
  rw [hc.loadPending, hc.readPending, hc.config, hc.draws]
  split
  · exact .next h
  · exact hR.dispatchLoad h ad
  · exact hR.dispatchRead h ad
  · split
    · exact hR.dispatchLoad hcount ad
    · exact hR.dispatchRead hcount ad

theorem Unseen.captureWord (w : EventByte) : Agree R (captureWord w s) (captureWord w t) := by
  unfold Machine.captureWord
  rw [(hR.control h).ctx]
  cases decode (decodeCtx s) w with
  | error e => exact .refused _
  | ok i => exact hR.captureEdges h i

theorem Unseen.applyEvent (w : EventByte) : Agree R (applyEvent w s) (applyEvent w t) := by
  have hc := hR.control h
  have hpending : somethingPending t = somethingPending s := by
    unfold somethingPending
    rw [hc.loadPending, hc.readPending]
  unfold Machine.applyEvent
  rw [hc.ctx, hpending]
  cases hd : decode (decodeCtx s) w with
  | error e => exact .refused _
  | ok i =>
    dsimp only
    split
    · obtain ⟨u, v, hu, hv, huv⟩ | ⟨r, hu, hv⟩ := (hR.captureEdges h i).cases
      · rw [hu, hv]
        exact hR.dispatch huv _
      · rw [hu, hv]
        exact .refused r
    · refine hR.command i h ?_
      rintro ⟨x, rfl⟩
      exact transferActive_of_decode hd

theorem Unseen.applyInput (i : Input) : Agree R (applyInput i s) (applyInput i t) := by
  have hc := hR.control h
  cases i with
  | event w => exact hR.applyEvent h w
  | edges e =>
    unfold Machine.applyInput
    rw [hc.config]
    exact hR.applyEvent h _
  | capture w => exact hR.captureWord h w
  | dispatch ad => exact hR.dispatch h ad
  | reset w =>
    unfold Machine.applyInput
    rw [resetDevice_congr hc]
    exact .next (hR.refl _)

/-- Related states step to related states, or are refused alike. -/
theorem Unseen.step : Agree R (step s) (step t) := by
  unfold Machine.step runStep
  rw [(hR.control h).inputs]
  cases s.inputs with
  | nil => exact .next h
  | cons i rest => exact hR.applyInput (hR.interfaceOp (.takeInput rest) h) i

end

end Sys2Proof.Machine

/-! SUPPORT. What the operations make of the elements that no other element depends on: `bankSelect` (R14) and the data line's direction and
level (R22, R23). -/

namespace Sys2Proof.Machine

/-- LA after steps 1 and 2 of R95. -/
theorem exec_la_eq (n : Nibble) (s : State) :
    exec (.la n) s = .next (accumulate n (clearReadPending (armForStart (cancelSession s)))) := rfl

/-- RD.CLK with steps 1 and 2 of R109 as one update. -/
theorem exec_rdClk_eq (x : Nibble) (s : State) :
    exec (.rdClk x) s = .next (advanceCursor { s with
      lineDriven := s.bankOwnsBus
      lineLevel := if s.bankOwnsBus = true then selectedBit s else s.lineLevel }) := by
  change Host.Outcome.next (advanceCursor (presentBit (followOwnership s))) = _
  rw [presentBit_eq, followOwnership_eq]
  rfl

/-- RD.START as one update (R108 with the fetch of R106). -/
theorem exec_rdStart_eq (x : Nibble) (s : State) :
    exec (.rdStart x) s = .next { s with
      transferActive := true
      bankOwnsBus := ownsAddress s.config s.address
      currentByte := if ownsAddress s.config s.address = true then s.config.rom.read (offsetOf s.address) else 0xFF
      bitCursor := 0
      readEdgeSel := .awaitingClock } := by
  change Host.Outcome.next (armForClock { fetch { s with transferActive := true } with bitCursor := 0 }) = _
  rw [fetch_eq]
  rfl

/-- Steps 3 and 4 of R109 as one update: after bit 7 the cursor wraps to 0, the address advances and the next byte is fetched. -/
theorem advanceCursor_eq (s : State) :
    advanceCursor s = { s with
      bitCursor := s.bitCursor + 1
      address := if s.bitCursor = 7 then nextAddress s.address else s.address
      bankOwnsBus := if s.bitCursor = 7 then ownsAddress s.config (nextAddress s.address) else s.bankOwnsBus
      currentByte :=
        if s.bitCursor = 7 then
          if ownsAddress s.config (nextAddress s.address) = true then s.config.rom.read (offsetOf (nextAddress s.address)) else 0xFF
        else s.currentByte } := by
  by_cases hk : s.bitCursor = 7
  · rw [advanceCursor_last hk, fetch_eq]
    simp [hk]
  · rw [advanceCursor_inside hk]
    simp [hk]

/-- Step 7 of R95 keeps the bank bits. -/
theorem bankOf_maskTo18 {w : Nat} (a : BitVec w) : bankOf (maskTo18 a) = bankOf a := by
  unfold bankOf maskTo18
  ext i hi
  have hmask : Nat.testBit 0x3FFFF (14 + i) = true := by
    rw [show (0x3FFFF : Nat) = 2 ^ 18 - 1 by rfl, Nat.testBit_two_pow_sub_one]
    exact decide_eq_true (by omega)
  simpa [BitVec.getLsbD_ofNat, hmask] using fun ha => BitVec.lt_of_getLsbD ha

end Sys2Proof.Machine

/-! `bankSelect` (10_state.md R14). -/

namespace Sys2Proof.Machine

/-- LA completes a load with the fifth nibble; then `bankSelect` is bits 17:14 of the masked address. -/
theorem bankSelect_of_accumulate (n : Nibble) (s : State) :
    (accumulate n s).bankSelect = s.bankSelect ∨
      (s.loadNibbleIndex = 4 ∧ (accumulate n s).addressValid = true ∧
        (accumulate n s).bankSelect = bankOf (accumulate n s).address) := by
  by_cases hk : s.loadNibbleIndex = 4
  · rw [accumulate_last n hk]
    exact .inr ⟨hk, rfl, (bankOf_maskTo18 _).symm⟩
  · rw [accumulate_partial n hk]
    exact .inl rfl

/-- A command other than LA keeps `bankSelect`. -/
theorem bankSelect_of_exec {i : Instr} {s t : State} (hi : ∀ n, i ≠ .la n) (h : exec i s = .next t) :
    t.bankSelect = s.bankSelect := by
  cases i with
  | la n => exact absurd rfl (hi n)
  | rdDummy x => cases h; rfl
  | rdStart x => rw [exec_rdStart_eq] at h; cases h; rfl
  | rdIgnS x => cases h; rfl
  | rdClk x => rw [exec_rdClk_eq] at h; cases h; exact advanceCursor_bankSelect _
  | rdIgnC x => cases h; rfl
  | ia p n => cases h
  | noedge x => cases h; rfl

/-- States that differ in `bankSelect` alone. -/
def SameButBankSelect (s t : State) : Prop := ∃ b, t = { s with bankSelect := b }

/-- A completed load overwrites `bankSelect`, any other nibble keeps it. -/
theorem SameButBankSelect.accumulate (n : Nibble) {s t : State} (h : SameButBankSelect s t) :
    SameButBankSelect (accumulate n s) (accumulate n t) := by
  obtain ⟨b, rfl⟩ := h
  by_cases hk : s.loadNibbleIndex = 4
  · rw [accumulate_last n hk, accumulate_last n (by exact hk)]
    exact ⟨_, rfl⟩
  · rw [accumulate_partial n hk, accumulate_partial n (by exact hk)]
    exact ⟨b, rfl⟩

theorem SameButBankSelect.exec (i : Instr) {s t : State} (h : SameButBankSelect s t) :
    Agree SameButBankSelect (exec i s) (exec i t) := by
  obtain ⟨b, rfl⟩ := h
  cases i with
  | la n => exact .next (SameButBankSelect.accumulate n ⟨b, rfl⟩)
  | rdDummy x => exact .next ⟨b, rfl⟩
  | rdStart x =>
    rw [exec_rdStart_eq, exec_rdStart_eq]
    exact .next ⟨b, rfl⟩
  | rdIgnS x => exact .next ⟨b, rfl⟩
  | rdClk x =>
    rw [exec_rdClk_eq, exec_rdClk_eq, advanceCursor_eq, advanceCursor_eq]
    exact .next ⟨b, rfl⟩
  | rdIgnC x => exact .next ⟨b, rfl⟩
  | ia p n => exact .refused _
  | noedge x => exact .next ⟨b, rfl⟩

theorem unseen_sameButBankSelect : Unseen SameButBankSelect where
  refl s := ⟨s.bankSelect, rfl⟩
  control := by
    rintro s t ⟨b, rfl⟩
    exact ⟨rfl, rfl, rfl, rfl, rfl, rfl⟩
  interfaceOp := by
    rintro s t f hf ⟨b, rfl⟩
    cases hf <;> exact ⟨b, rfl⟩
  command i h _ := h.exec i

/-- Settles O45: LA writes `bankSelect` with the fifth nibble only, and differing in `bankSelect` alone is kept by every step. -/
theorem bankSelectIsReadByNothing : Obligations.BankSelectIsReadByNothing := by
  unfold Obligations.BankSelectIsReadByNothing
  refine ⟨fun i s t h => ?_, fun s b => ?_⟩
  · by_cases hi : ∃ n, i = .la n
    · obtain ⟨n, rfl⟩ := hi
      rw [exec_la_eq] at h
      cases h
      obtain hsame | ⟨hk, hvalid, hbank⟩ :=
        bankSelect_of_accumulate n (clearReadPending (armForStart (cancelSession s)))
      · exact .inl hsame
      · exact .inr ⟨⟨n, rfl⟩, hk, hvalid, hbank⟩
    · exact .inl (bankSelect_of_exec (fun n hn => hi ⟨n, hn⟩) h)
  · have h : SameButBankSelect s { s with bankSelect := b } := ⟨b, rfl⟩
    obtain hu | hr := (unseen_sameButBankSelect.step h).cases
    · obtain ⟨u, v, hs, ht, c, rfl⟩ := hu
      exact .inl ⟨u, c, hs, ht⟩
    · exact .inr hr

end Sys2Proof.Machine

/-! `lineLevel` (10_state.md R23). -/

namespace Sys2Proof.Machine

theorem lineLevel_of_exec {i : Instr} {s t : State} (hi : ∀ x, i ≠ .rdClk x) (h : exec i s = .next t) :
    t.lineLevel = s.lineLevel := by
  cases i with
  | la n => rw [exec_la_eq] at h; cases h; exact accumulate_lineLevel n _
  | rdDummy x => cases h; rfl
  | rdStart x => rw [exec_rdStart_eq] at h; cases h; rfl
  | rdIgnS x => cases h; rfl
  | rdClk x => exact absurd rfl (hi x)
  | rdIgnC x => cases h; rfl
  | ia p n => cases h
  | noedge x => cases h; rfl

/-- States that differ in `lineLevel` alone, with the same `DATA`: where the line is driven they are equal. -/
def SameButStaleLevel (s t : State) : Prop := ∃ b, t = { s with lineLevel := b } ∧ dataOut t = dataOut s

theorem dataOut_of_released {s : State} (h : s.lineDriven = false) : dataOut s = .released := by
  unfold dataOut
  rw [h]
  rfl

/-- With the line released, any two levels are related. -/
theorem sameButStaleLevel_of_released {s : State} (b : Bool) (h : s.lineDriven = false) :
    SameButStaleLevel s { s with lineLevel := b } :=
  ⟨b, rfl, by rw [dataOut_of_released h, dataOut_of_released (by exact h)]⟩

/-- LA releases the line and reads no level. -/
theorem sameButStaleLevel_accumulate (n : Nibble) {s : State} (b : Bool) (h : s.lineDriven = false) :
    SameButStaleLevel (accumulate n s) (accumulate n { s with lineLevel := b }) := by
  have heq : accumulate n { s with lineLevel := b } = { accumulate n s with lineLevel := b } := by
    by_cases hk : s.loadNibbleIndex = 4
    · rw [accumulate_last n hk, accumulate_last n (by exact hk)]
      rfl
    · rw [accumulate_partial n hk, accumulate_partial n (by exact hk)]
      rfl
  rw [heq]
  exact sameButStaleLevel_of_released b ((accumulate_lineDriven n s).trans h)

/-- The step that drives the line writes the level (R109 steps 1 and 2); where the device is no owner it leaves the line released. -/
theorem sameButStaleLevel_rdClk (x : Nibble) (s : State) (b : Bool) :
    Agree SameButStaleLevel (exec (.rdClk x) s) (exec (.rdClk x) { s with lineLevel := b }) := by
  rw [exec_rdClk_eq, exec_rdClk_eq, advanceCursor_eq, advanceCursor_eq]
  cases hown : s.bankOwnsBus with
  | true => exact .next ⟨_, rfl, rfl⟩
  | false => exact .next ⟨b, rfl, rfl⟩

theorem SameButStaleLevel.exec (i : Instr) {s t : State} (h : SameButStaleLevel s t) :
    Agree SameButStaleLevel (exec i s) (exec i t) := by
  obtain ⟨b, rfl, hdata⟩ := h
  cases i with
  | la n => exact .next (sameButStaleLevel_accumulate n b rfl)
  | rdDummy x => exact .next ⟨b, rfl, hdata⟩
  | rdStart x =>
    rw [exec_rdStart_eq, exec_rdStart_eq]
    exact .next ⟨b, rfl, hdata⟩
  | rdIgnS x => exact .next ⟨b, rfl, hdata⟩
  | rdClk x => exact sameButStaleLevel_rdClk x s b
  | rdIgnC x => exact .next ⟨b, rfl, hdata⟩
  | ia p n => exact .refused _
  | noedge x => exact .next ⟨b, rfl, hdata⟩

theorem unseen_sameButStaleLevel : Unseen SameButStaleLevel where
  refl s := ⟨s.lineLevel, rfl, rfl⟩
  control := by
    rintro s t ⟨b, rfl, -⟩
    exact ⟨rfl, rfl, rfl, rfl, rfl, rfl⟩
  interfaceOp := by
    rintro s t f hf ⟨b, rfl, hdata⟩
    cases hf <;> exact ⟨b, rfl, hdata⟩
  command i h _ := h.exec i

/-- RD.CLK writes the level of an owner only, and drives the line in the same step. -/
theorem lineDriven_of_lineLevel_ne {x : Nibble} {s t : State} (h : exec (.rdClk x) s = .next t) (hne : t.lineLevel ≠ s.lineLevel) :
    s.bankOwnsBus = true ∧ t.lineDriven = true := by
  rw [exec_rdClk_eq, advanceCursor_eq] at h
  cases h
  cases hown : s.bankOwnsBus with
  | true => exact ⟨rfl, rfl⟩
  | false => simp [hown] at hne

/-- Settles O46: the level is written with the line driven by an owner's RD.CLK only, and differing in a level that is not presented is kept
by every step. -/
theorem staleLevelIsNeverPresented : Obligations.StaleLevelIsNeverPresented := by
  unfold Obligations.StaleLevelIsNeverPresented
  refine ⟨fun i s t h hne => ?_, fun s b hreleased => ?_⟩
  · by_cases hi : ∃ x, i = .rdClk x
    · obtain ⟨x, rfl⟩ := hi
      exact ⟨⟨x, rfl⟩, lineDriven_of_lineLevel_ne h hne⟩
    · exact absurd (lineLevel_of_exec (fun x hx => hi ⟨x, hx⟩) h) hne
  · obtain hu | hr := (unseen_sameButStaleLevel.step (sameButStaleLevel_of_released b hreleased)).cases
    · obtain ⟨u, v, hs, ht, c, rfl, hdata⟩ := hu
      exact .inl ⟨u, c, hs, ht, hdata⟩
    · exact .inr hr

end Sys2Proof.Machine

/-! READ edges (30_encoding.md R60, R64, R65, R71): how a word with a READ edge decodes, and that no meaning of such a row reads the nibble. -/

namespace Sys2Proof.Machine

/-- A word of `L` = 0 and `R` = 1 decodes as the READ edge of the polarity `p` (R60, R64, R65). -/
theorem decode_readEdge (c : DecodeCtx) (p : Bool) (x : Nibble) :
    decode c (0b001#3 ++ BitVec.ofBool p ++ x) = .ok (decodeReadEdge c p x) := by
  have hbit7 : BitVec.getLsbD (0b001#3 ++ BitVec.ofBool p ++ x) 7 = false := by revert p x; decide
  have hfields : fieldsOf (0b001#3 ++ BitVec.ofBool p ++ x) = ⟨false, true, p, x⟩ := by revert p x; decide
  unfold decode
  rw [hbit7, hfields]
  rfl

/-- The rows of the opcode table that a READ edge alone can select, as functions of the ignored nibble. -/
inductive ReadRow : (Nibble → Instr) → Prop where
  | rdDummy : ReadRow .rdDummy
  | rdStart : ReadRow .rdStart
  | rdIgnS : ReadRow .rdIgnS
  | rdClk : ReadRow .rdClk
  | rdIgnC : ReadRow .rdIgnC

theorem ReadRow.of_readBranch (c : DecodeCtx) : ReadRow (readBranch c) := by
  unfold readBranch
  split
  · exact .rdClk
  · split
    · exact .rdStart
    · exact .rdDummy

/-- The state bits and the polarity alone select the row (R68). -/
theorem ReadRow.of_decodeReadEdge (c : DecodeCtx) (p : Bool) : ReadRow (decodeReadEdge c p) := by
  unfold decodeReadEdge
  split
  · exact .of_readBranch c
  · exact .rdIgnC
  · exact .rdIgnS
  · exact .of_readBranch c

theorem ReadRow.captureEdges_congr {row : Nibble → Instr} (h : ReadRow row) (x y : Nibble) (s : State) :
    captureEdges (row x) s = captureEdges (row y) s := by
  cases h <;> rfl

theorem ReadRow.exec_congr {row : Nibble → Instr} (h : ReadRow row) (x y : Nibble) (s : State) :
    exec (row x) s = exec (row y) s := by
  cases h <;> rfl

/-- The capture of a READ edge is the same for all levels of AD[3:0]. -/
theorem captureWord_readEdge_congr (p : Bool) (x y : Nibble) (s : State) :
    captureWord (0b001#3 ++ BitVec.ofBool p ++ x) s = captureWord (0b001#3 ++ BitVec.ofBool p ++ y) s := by
  unfold captureWord
  rw [decode_readEdge, decode_readEdge]
  exact (ReadRow.of_decodeReadEdge _ p).captureEdges_congr x y s

/-- With no event pending, so is the atomic event. -/
theorem applyEvent_readEdge_congr (p : Bool) (x y : Nibble) {s : State} (h : LatchesClear s) :
    applyEvent (0b001#3 ++ BitVec.ofBool p ++ x) s = applyEvent (0b001#3 ++ BitVec.ofBool p ++ y) s := by
  rw [applyEvent_of_clear h, applyEvent_of_clear h, decode_readEdge, decode_readEdge]
  exact (ReadRow.of_decodeReadEdge _ p).exec_congr x y s

/-- Settles O36: the nibble of a READ edge selects no row, and no row that such an edge selects reads it. -/
theorem readEdgeIgnoresTheNibble : Obligations.ReadEdgeIgnoresTheNibble := by
  unfold Obligations.ReadEdgeIgnoresTheNibble
  intro s x y
  exact ⟨captureWord_readEdge_congr false x y s, captureWord_readEdge_congr true x y s,
    fun h => ⟨applyEvent_readEdge_congr false x y h, applyEvent_readEdge_congr true x y h⟩⟩

end Sys2Proof.Machine

/-! What the events LA, RS, RC and IA decode to, and what they run or latch (40_command_decoder.md R81 to R87). -/

namespace Sys2Proof.Machine

theorem decode_wordLA (c : DecodeCtx) (n : Nibble) : decode c (wordLA n) = .ok (.la n) := Laws.RoundTrip.la n c rfl

theorem decode_wordIA (c : DecodeCtx) (p : Bool) (n : Nibble) : decode c (wordIA p n) = .ok (.ia p n) :=
  Laws.RoundTrip.ia p n c rfl

theorem decode_wordRS (c : DecodeCtx) : decode c wordRS = .ok (decodeReadEdge c false 0) := decode_readEdge c false 0

theorem decode_wordRC (c : DecodeCtx) : decode c wordRC = .ok (decodeReadEdge c true 0) := decode_readEdge c true 0

/-- What `readEdgeSel` holds where a READ edge with polarity bit `p` is an event (R21, R81). -/
def armedFor (p : Bool) : ReadEdgeSel := if p then .awaitingClock else .awaitingStart

/-- An edge of the armed polarity runs the handler, the other one changes nothing (R81, R82). -/
theorem exec_decodeReadEdge (c : DecodeCtx) (p : Bool) (x : Nibble) (s : State) :
    exec (decodeReadEdge c p x) s = if c.readEdgeSel = armedFor p then exec (readBranch c x) s else .next s := by
  obtain ⟨sel, a, v⟩ := c
  cases sel <;> cases p <;> rfl

/-- Whatever the handler's branch will be, an edge of the armed polarity sets the latch alone, and the other one sets nothing (R83). -/
theorem captureEdges_decodeReadEdge (c : DecodeCtx) (p : Bool) (x : Nibble) (s : State) :
    captureEdges (decodeReadEdge c p x) s =
      .next (if c.readEdgeSel = armedFor p then { s with readPending := true } else s) := by
  have hbranch : captureEdges (readBranch c x) s = .next { s with readPending := true } := by
    unfold readBranch
    split
    · rfl
    · split <;> rfl
  obtain ⟨sel, a, v⟩ := c
  cases sel <;> cases p
  case awaitingStart.false => exact hbranch
  case awaitingClock.true => exact hbranch
  all_goals rfl

/-- The Read-Data Handler's branches (R87). -/
theorem exec_readBranch (s : State) (x : Nibble) :
    exec (readBranch (decodeCtx s) x) s =
      if s.transferActive = false then
        if s.addressValid = false then exec (.rdDummy x) s else exec (.rdStart x) s
      else exec (.rdClk x) s := by
  unfold readBranch decodeCtx
  cases s.transferActive with
  | true => rfl
  | false => cases s.addressValid <;> rfl

section
variable {s : State} (hclear : LatchesClear s)
include hclear

theorem applyEvent_wordLA (n : Nibble) : applyEvent (wordLA n) s = exec (.la n) s := by
  rw [applyEvent_of_clear hclear, decode_wordLA]

theorem applyEvent_wordIA (p : Bool) (n : Nibble) : applyEvent (wordIA p n) s = .refused .indirectAddress := by
  rw [applyEvent_of_clear hclear, decode_wordIA]
  rfl

theorem applyEvent_wordRS :
    applyEvent wordRS s = if s.readEdgeSel = .awaitingStart then exec (readBranch (decodeCtx s) 0) s else .next s := by
  rw [applyEvent_of_clear hclear, decode_wordRS]
  exact exec_decodeReadEdge (decodeCtx s) false 0 s

theorem applyEvent_wordRC :
    applyEvent wordRC s = if s.readEdgeSel = .awaitingClock then exec (readBranch (decodeCtx s) 0) s else .next s := by
  rw [applyEvent_of_clear hclear, decode_wordRC]
  exact exec_decodeReadEdge (decodeCtx s) true 0 s

end

/-- Settles O12: each event's word decodes to the command of R86, and the armed READ edge takes the branch of R87. -/
theorem atomicEventStepFunction : Obligations.AtomicEventStepFunction := by
  unfold Obligations.AtomicEventStepFunction
  intro s n p hclear
  dsimp only
  rw [← exec_readBranch]
  exact ⟨applyEvent_wordLA hclear n, applyEvent_wordRS hclear, applyEvent_wordRC hclear, applyEvent_wordIA hclear p n⟩

/-- Settles O33: the row that the state bits select for the edge is RD.IGN, which answers the same state. -/
theorem unarmedEdgesChangeNothing : Obligations.UnarmedEdgesChangeNothing := by
  unfold Obligations.UnarmedEdgesChangeNothing
  intro x s
  exact ⟨fun a v => Laws.RoundTrip.rdIgnS x ⟨.awaitingClock, a, v⟩ rfl,
    fun a v => Laws.RoundTrip.rdIgnC x ⟨.awaitingStart, a, v⟩ rfl, rfl, rfl⟩

end Sys2Proof.Machine

/-! The event sources: who sets and clears the READ latch (40_command_decoder.md R83), who writes the armed polarity (R88). -/

namespace Sys2Proof.Machine

theorem captureWord_wordLA (n : Nibble) (s : State) : captureWord (wordLA n) s = .next { s with loadPending := true } := by
  unfold captureWord
  rw [decode_wordLA]
  rfl

theorem captureWord_wordRS (s : State) :
    captureWord wordRS s = .next (if s.readEdgeSel = .awaitingStart then { s with readPending := true } else s) := by
  unfold captureWord
  rw [decode_wordRS]
  exact captureEdges_decodeReadEdge (decodeCtx s) false 0 s

theorem captureWord_wordRC (s : State) :
    captureWord wordRC s = .next (if s.readEdgeSel = .awaitingClock then { s with readPending := true } else s) := by
  unfold captureWord
  rw [decode_wordRC]
  exact captureEdges_decodeReadEdge (decodeCtx s) true 0 s

/-- A command other than LA keeps the READ latch. -/
theorem readPending_of_exec {i : Instr} {s t : State} (hi : ∀ n, i ≠ .la n) (h : exec i s = .next t) :
    t.readPending = s.readPending := by
  cases i with
  | la n => exact absurd rfl (hi n)
  | rdDummy x => cases h; rfl
  | rdStart x => rw [exec_rdStart_eq] at h; cases h; rfl
  | rdIgnS x => cases h; rfl
  | rdClk x => rw [exec_rdClk_eq] at h; cases h; exact advanceCursor_readPending _
  | rdIgnC x => cases h; rfl
  | ia p n => cases h
  | noedge x => cases h; rfl

/-- Settles O14: each capture sets at most its own latch, and no command but LA writes the READ latch. -/
theorem triggerEdgeSetsItsLatch : Obligations.TriggerEdgeSetsItsLatch := by
  unfold Obligations.TriggerEdgeSetsItsLatch
  intro s n
  refine ⟨captureWord_wordLA n s, captureWord_wordRS s, captureWord_wordRC s, fun i t h hset hcleared => ?_⟩
  by_contra hla
  have hkept := readPending_of_exec (fun m hm => hla ⟨m, hm⟩) h
  rw [hset, hcleared] at hkept
  cases hkept

/-- A command other than LA and RD.START keeps the armed polarity. -/
theorem readEdgeSel_of_exec {i : Instr} {s t : State} (hla : ∀ n, i ≠ .la n) (hstart : ∀ x, i ≠ .rdStart x)
    (h : exec i s = .next t) : t.readEdgeSel = s.readEdgeSel := by
  cases i with
  | la n => exact absurd rfl (hla n)
  | rdDummy x => cases h; rfl
  | rdStart x => exact absurd rfl (hstart x)
  | rdIgnS x => cases h; rfl
  | rdClk x => rw [exec_rdClk_eq] at h; cases h; exact advanceCursor_readEdgeSel _
  | rdIgnC x => cases h; rfl
  | ia p n => cases h
  | noedge x => cases h; rfl

/-- Settles O41: LA arms the start polarity, RD.START the clock polarity, `RESET` the start polarity, and no other command arms any. -/
theorem writersOfTheArmedPolarity : Obligations.WritersOfTheArmedPolarity := by
  unfold Obligations.WritersOfTheArmedPolarity
  intro i s t h
  refine ⟨?_, ?_, fun hla hstart => readEdgeSel_of_exec hla hstart h, fun w u hu => ?_⟩
  · rintro ⟨n, rfl⟩
    rw [exec_la_eq] at h
    cases h
    exact accumulate_readEdgeSel n _
  · rintro ⟨x, rfl⟩
    rw [exec_rdStart_eq] at h
    cases h
    rfl
  · cases hu
    rfl

end Sys2Proof.Machine

/-! The four phases (40_command_decoder.md R89). -/

namespace Sys2Proof.Machine

theorem phaseOf_eq_session_iff (s : State) : phaseOf s = .session ↔ s.transferActive = true := by
  unfold phaseOf
  cases s.transferActive with
  | true => simp
  | false =>
    cases s.addressValid with
    | true => simp
    | false => by_cases hk : s.loadNibbleIndex = 0 <;> simp [hk]

theorem phaseOf_eq_armed_iff (s : State) : phaseOf s = .armed ↔ s.transferActive = false ∧ s.addressValid = true := by
  unfold phaseOf
  cases s.transferActive with
  | true => simp
  | false =>
    cases s.addressValid with
    | true => simp
    | false => by_cases hk : s.loadNibbleIndex = 0 <;> simp [hk]

/-- Without a session and a valid address the load index tells IDLE from LOADING. -/
theorem phaseOf_of_no_address {s : State} (hactive : s.transferActive = false) (hvalid : s.addressValid = false) :
    phaseOf s = if s.loadNibbleIndex = 0 then .idle else .loading := by
  unfold phaseOf
  rw [hactive, hvalid]
  rfl

/-! LA -/

/-- Outside LOADING the next nibble is the first of a load. -/
theorem loadNibbleIndex_of_not_loading {s : State} (hinv : StateInv s) (hphase : phaseOf s ≠ .loading) :
    s.loadNibbleIndex = 0 := by
  obtain ⟨hindex, hsession, -⟩ := hinv
  by_contra hk
  have hvalid : s.addressValid = false := Bool.eq_false_iff.2 fun hv => hk (hindex hv)
  have hactive : s.transferActive = false := Bool.eq_false_iff.2 fun ha => Bool.eq_false_iff.1 hvalid (hsession ha)
  exact hphase ((phaseOf_of_no_address hactive hvalid).trans (if_neg hk))

/-- The fifth nibble arms, any other one leaves a load in progress. -/
theorem phaseOf_accumulate (n : Nibble) {s : State} (hactive : s.transferActive = false) :
    phaseOf (accumulate n s) = if s.loadNibbleIndex = 4 then .armed else .loading := by
  by_cases hk : s.loadNibbleIndex = 4
  · rw [accumulate_last n hk, if_pos hk]
    exact (phaseOf_eq_armed_iff _).2 ⟨hactive, rfl⟩
  · have hnext : s.loadNibbleIndex + 1 ≠ 0 := by omega
    rw [accumulate_partial n hk, if_neg hk, phaseOf_of_no_address (by exact hactive) rfl]
    exact if_neg hnext

theorem loadNibbleIndex_accumulate (n : Nibble) {s : State} (h : s.loadNibbleIndex ≠ 4) :
    (accumulate n s).loadNibbleIndex = s.loadNibbleIndex + 1 := by rw [accumulate_partial n h]

/-- A first nibble replaces the address (R95 step 4). -/
theorem accumulate_first (n : Nibble) {s : State} (h : s.loadNibbleIndex = 0) :
    (accumulate n s).loadNibbleIndex = 1 ∧ (accumulate n s).address = n.setWidth addrW := by
  rw [accumulate_partial n (by rw [h]; decide)]
  simp [accumulated, insertNibble, h]

/-! RS and RC -/

section
variable {s : State} (hclear : LatchesClear s) (harmed : ClockArmedExactlyInSession s)
include hclear harmed

theorem applyEvent_wordRS_in_session (hactive : s.transferActive = true) : applyEvent wordRS s = .next s := by
  rw [applyEvent_wordRS hclear, harmed.2 hactive]
  rfl

theorem applyEvent_wordRC_in_session (hactive : s.transferActive = true) : applyEvent wordRC s = exec (.rdClk 0) s := by
  rw [applyEvent_wordRC hclear, if_pos (harmed.2 hactive), exec_readBranch, hactive]
  rfl

theorem applyEvent_wordRC_outside_session (hactive : s.transferActive = false) : applyEvent wordRC s = .next s := by
  rw [applyEvent_wordRC hclear, if_neg fun hsel => Bool.eq_false_iff.1 hactive (harmed.1 hsel)]

theorem applyEvent_wordRS_outside_session (hactive : s.transferActive = false) :
    applyEvent wordRS s = if s.addressValid = false then exec (.rdDummy 0) s else exec (.rdStart 0) s := by
  have hstart : s.readEdgeSel = .awaitingStart := by
    cases hsel : s.readEdgeSel with
    | awaitingStart => rfl
    | awaitingClock => exact absurd (harmed.1 hsel) (Bool.eq_false_iff.1 hactive)
  rw [applyEvent_wordRS hclear, if_pos hstart, exec_readBranch, if_pos hactive]

end

/-- The column `LA n` of R89's table. -/
theorem phase_after_wordLA (n : Nibble) {s : State} (hinv : StateInv s) (hclear : LatchesClear s) :
    ∃ t, applyEvent (wordLA n) s = .next t ∧ dataOut t = .released ∧
      phaseOf t = (if s.loadNibbleIndex = 4 then .armed else .loading) ∧
      (phaseOf s = .loading → s.loadNibbleIndex ≠ 4 → t.loadNibbleIndex = s.loadNibbleIndex + 1) ∧
      (phaseOf s ≠ .loading → t.loadNibbleIndex = 1 ∧ t.address = n.setWidth addrW) := by
  refine ⟨_, (applyEvent_wordLA hclear n).trans (exec_la_eq n s), dataOut_of_released (accumulate_lineDriven n _),
    phaseOf_accumulate n rfl, fun _ hk => loadNibbleIndex_accumulate n hk, fun hphase => ?_⟩
  have hk : s.loadNibbleIndex = 0 := loadNibbleIndex_of_not_loading hinv hphase
  exact accumulate_first n hk

/-- The column `RS` of R89's table. -/
theorem phase_after_wordRS {s : State} (hclear : LatchesClear s) (harmed : ClockArmedExactlyInSession s) :
    ∃ t, applyEvent wordRS s = .next t ∧
      (phaseOf s = .idle → phaseOf t = .idle) ∧
      (phaseOf s = .loading → phaseOf t = .idle ∧ t.address = 0 ∧ t.loadNibbleIndex = 0) ∧
      (phaseOf s = .armed → phaseOf t = .session) ∧
      (phaseOf s = .session → t = s) := by
  cases hactive : s.transferActive with
  | true =>
    have hphase := (phaseOf_eq_session_iff s).2 hactive
    exact ⟨s, applyEvent_wordRS_in_session hclear harmed hactive, by simp [hphase]⟩
  | false =>
    rw [applyEvent_wordRS_outside_session hclear harmed hactive]
    cases hvalid : s.addressValid with
    | true =>
      have hphase := (phaseOf_eq_armed_iff s).2 ⟨hactive, hvalid⟩
      refine ⟨_, exec_rdStart_eq 0 s, ?_⟩
      simp [hphase, phaseOf_eq_session_iff]
    | false =>
      have hidle : phaseOf { s with address := 0, loadNibbleIndex := 0 } = .idle := phaseOf_of_no_address hactive hvalid
      refine ⟨{ s with address := 0, loadNibbleIndex := 0 }, rfl, fun _ => hidle, fun _ => ⟨hidle, rfl, rfl⟩, ?_⟩
      simp [phaseOf_eq_armed_iff, phaseOf_eq_session_iff, hactive, hvalid]

/-- The column `RC` of R89's table. -/
theorem phase_after_wordRC {s : State} (hclear : LatchesClear s) (harmed : ClockArmedExactlyInSession s) :
    ∃ t, applyEvent wordRC s = .next t ∧
      (phaseOf s ≠ .session → t = s) ∧
      (phaseOf s = .session → phaseOf t = .session ∧ t.bitCursor = s.bitCursor + 1) := by
  cases hactive : s.transferActive with
  | true =>
    have hphase := (phaseOf_eq_session_iff s).2 hactive
    rw [applyEvent_wordRC_in_session hclear harmed hactive, exec_rdClk_eq, advanceCursor_eq]
    exact ⟨_, rfl, fun h => absurd hphase h, fun _ => ⟨(phaseOf_eq_session_iff _).2 hactive, rfl⟩⟩
  | false =>
    have hphase : phaseOf s ≠ .session := by simp [phaseOf_eq_session_iff, hactive]
    exact ⟨s, applyEvent_wordRC_outside_session hclear harmed hactive, fun _ => rfl, fun h => absurd h hphase⟩

/-- Settles O44, one column of R89's table at a time. -/
theorem phaseTransitions : Obligations.PhaseTransitions := by
  unfold Obligations.PhaseTransitions
  intro s n hinv hclear
  have harmed : ClockArmedExactlyInSession s := by
    obtain ⟨-, -, harmed, -⟩ := hinv
    exact harmed
  exact ⟨phase_after_wordLA n hinv hclear, phase_after_wordRS hclear harmed, phase_after_wordRC hclear harmed⟩

end Sys2Proof.Machine

/-! LOAD ADDRESS (41_load_address.md R95, R96, R99): the next state of LA, once for a nibble before the fifth and once for the fifth. -/

namespace Sys2Proof.Machine

/-- The next state of LA: steps 1 and 2 of R95, then the nibble. -/
def afterLa (n : Nibble) (s : State) : State := accumulate n (clearReadPending (armForStart (cancelSession s)))

theorem exec_la (n : Nibble) (s : State) : exec (.la n) s = .next (afterLa n s) := exec_la_eq n s

theorem afterLa_partial (n : Nibble) {s : State} (h : s.loadNibbleIndex ≠ 4) :
    afterLa n s = { s with
      transferActive := false, bankOwnsBus := false, lineDriven := false
      readEdgeSel := .awaitingStart, readPending := false
      addressValid := false, loadNibbleIndex := s.loadNibbleIndex + 1, address := accumulated n s } :=
  accumulate_partial n (s := clearReadPending (armForStart (cancelSession s))) h

theorem afterLa_last (n : Nibble) {s : State} (h : s.loadNibbleIndex = 4) :
    afterLa n s = { s with
      transferActive := false, bankOwnsBus := false, lineDriven := false
      readEdgeSel := .awaitingStart, readPending := false
      addressValid := true, loadNibbleIndex := 0
      bankSelect := bankOf (accumulated n s), address := maskTo18 (accumulated n s) } :=
  accumulate_last n (s := clearReadPending (armForStart (cancelSession s))) h

@[simp] theorem afterLa_transferActive (n : Nibble) (s : State) : (afterLa n s).transferActive = false :=
  accumulate_transferActive n _
@[simp] theorem afterLa_bankOwnsBus (n : Nibble) (s : State) : (afterLa n s).bankOwnsBus = false := accumulate_bankOwnsBus n _
@[simp] theorem afterLa_lineDriven (n : Nibble) (s : State) : (afterLa n s).lineDriven = false := accumulate_lineDriven n _
@[simp] theorem afterLa_readEdgeSel (n : Nibble) (s : State) : (afterLa n s).readEdgeSel = .awaitingStart :=
  accumulate_readEdgeSel n _
@[simp] theorem afterLa_bitCursor (n : Nibble) (s : State) : (afterLa n s).bitCursor = s.bitCursor := accumulate_bitCursor n _
@[simp] theorem afterLa_currentByte (n : Nibble) (s : State) : (afterLa n s).currentByte = s.currentByte :=
  accumulate_currentByte n _

theorem dataOut_afterLa (n : Nibble) (s : State) : dataOut (afterLa n s) = .released :=
  dataOut_of_released (afterLa_lineDriven n s)

/-- LA clears the READ latch and leaves the LOAD latch alone. -/
theorem latchesClear_afterLa (n : Nibble) {s : State} (h : LatchesClear s) : LatchesClear (afterLa n s) :=
  ⟨(accumulate_loadPending n _).trans h.1, accumulate_readPending n _⟩

theorem afterLa_first (n : Nibble) {s : State} (h : s.loadNibbleIndex = 0) :
    (afterLa n s).loadNibbleIndex = 1 ∧ (afterLa n s).address = n.setWidth addrW :=
  accumulate_first n (s := clearReadPending (armForStart (cancelSession s))) h

/-- Settles O17: the word decodes to LA in every state, and the next state is that of a nibble before the fifth or of the fifth. -/
theorem loadAddressSevenSteps : Obligations.LoadAddressSevenSteps := by
  unfold Obligations.LoadAddressSevenSteps
  refine fun n s => ⟨fun c => decode_wordLA c n, ?_⟩
  dsimp only
  rw [exec_la]
  by_cases hk : s.loadNibbleIndex = 4
  · rw [if_pos hk, afterLa_last n hk]
    rfl
  · rw [if_neg hk, afterLa_partial n hk]
    rfl

/-- Settles O21: step 1 of R95 in every state; a session has a valid address (R31), so the load index is 0 in it (R30). -/
theorem loadAddressCancelsSession : Obligations.LoadAddressCancelsSession := by
  unfold Obligations.LoadAddressCancelsSession
  refine fun s n => ⟨afterLa n s, exec_la n s, afterLa_transferActive n s, afterLa_bankOwnsBus n s, dataOut_afterLa n s,
    afterLa_bitCursor n s, afterLa_currentByte n s, fun hinv hactive => ?_⟩
  obtain ⟨hindex, hsession, -⟩ := hinv
  exact (afterLa_first n (hindex (hsession hactive))).symm

end Sys2Proof.Machine

/-! Runs of event words: their concatenation, LA as the last or the first word, and words without a trigger edge. -/

namespace Sys2Proof.Machine

theorem runInputs_cons {i : Input} {s t : State} (h : applyInput i s = .next t) (is : List Input) :
    runInputs (i :: is) s = runInputs is t := by
  rw [runInputs, h]

/-- A run that ends in a state goes on from there. -/
theorem runInputs_append {is : List Input} {s t : State} (h : runInputs is s = .next t) (js : List Input) :
    runInputs (is ++ js) s = runInputs js t := by
  induction is generalizing s with
  | nil => cases h; rfl
  | cons i is ih =>
    cases hi : applyInput i s with
    | next u =>
      rw [runInputs_cons hi] at h
      rw [List.cons_append, runInputs_cons hi, ih h]
    | fault r => rw [runInputs, hi] at h; cases h
    | refused r => rw [runInputs, hi] at h; cases h

theorem runWords_append {ws : List EventByte} {s t : State} (h : runWords ws s = .next t) (vs : List EventByte) :
    runWords (ws ++ vs) s = runWords vs t := by
  unfold runWords
  rw [List.map_append]
  exact runInputs_append h _

theorem runWords_cons {w : EventByte} {s t : State} (h : applyEvent w s = .next t) (ws : List EventByte) :
    runWords (w :: ws) s = runWords ws t := runInputs_cons (i := .event w) h _

theorem runWords_cons_wordLA (n : Nibble) {s : State} (hclear : LatchesClear s) (ws : List EventByte) :
    runWords (wordLA n :: ws) s = runWords ws (afterLa n s) :=
  runWords_cons ((applyEvent_wordLA hclear n).trans (exec_la n s)) ws

/-- Bits 7:4 of an event word that is no trigger edge while READ is armed for the start polarity: an edge of clock polarity on READ
(R65, R82), or no edge (R67). -/
def NoTrigger (w : EventByte) : Prop := w.extractLsb' 4 4 = 0b0011#4 ∨ w.extractLsb' 4 4 = 0b0000#4

/-- R60: the byte is its bits 7:4 and the nibble. -/
theorem eq_append_nibbles (w : EventByte) : w = w.extractLsb' 4 4 ++ w.extractLsb' 0 4 :=
  ((BitVec.extractLsb'_append_extractLsb'_eq_extractLsb' (show 4 = 0 + 4 from rfl)).trans BitVec.extractLsb'_eq_self).symm

section
variable {s : State} (hclear : LatchesClear s) (hstart : s.readEdgeSel = .awaitingStart)
include hclear hstart

theorem applyEvent_of_noTrigger {w : EventByte} (hw : NoTrigger w) : applyEvent w s = .next s := by
  rw [applyEvent_of_clear hclear, eq_append_nibbles w]
  obtain h | h := hw
  · have hsel : (Instr.rdIgnC (w.extractLsb' 0 4)).selectedIn (decodeCtx s) = true := by
      unfold Instr.selectedIn decodeCtx
      rw [hstart]
      rfl
    have hdecode : decode (decodeCtx s) (0b0011#4 ++ w.extractLsb' 0 4) = .ok (.rdIgnC _) := Laws.RoundTrip.rdIgnC _ _ hsel
    rw [h, hdecode]
    rfl
  · have hdecode : decode (decodeCtx s) (0b0000#4 ++ w.extractLsb' 0 4) = .ok (.noedge _) := Laws.RoundTrip.noedge _ _ rfl
    rw [h, hdecode]
    rfl

theorem runWords_of_noTrigger {ws : List EventByte} (hws : ∀ w ∈ ws, NoTrigger w) : runWords ws s = .next s := by
  induction ws with
  | nil => rfl
  | cons w ws ih =>
    rw [List.forall_mem_cons] at hws
    rw [runWords_cons (applyEvent_of_noTrigger hclear hstart hws.1)]
    exact ih hws.2

end

end Sys2Proof.Machine

/-! The number that the nibbles of a load make (30_encoding.md R45, R70), and step 5 of R95 as its next digit. -/

namespace Sys2Proof.Machine

theorem valueOfNibbles_concat (ns : List Nibble) (n : Nibble) :
    valueOfNibbles (ns ++ [n]) = valueOfNibbles ns + 2 ^ (4 * ns.length) * n.toNat := by
  induction ns with
  | nil => simp [valueOfNibbles]
  | cons m ns ih =>
    rw [List.cons_append, valueOfNibbles, ih, valueOfNibbles, List.length_cons]
    ring

theorem valueOfNibbles_lt (ns : List Nibble) : valueOfNibbles ns < 2 ^ (4 * ns.length) := by
  induction ns with
  | nil => simp [valueOfNibbles]
  | cons n ns ih =>
    have hn := n.isLt
    rw [valueOfNibbles, List.length_cons, Nat.mul_add, Nat.pow_add]
    omega

/-- Where the register has room for it, a nibble put in above a number is that number's next digit. -/
theorem toNat_insertNibble {w : Nat} {a : BitVec w} {ns : List Nibble} (ha : a.toNat = valueOfNibbles ns) (n : Nibble)
    (hroom : 4 * ns.length + 4 ≤ w) : (insertNibble a n ns.length).toNat = valueOfNibbles (ns ++ [n]) := by
  have hwide : n.toNat < 2 ^ w := lt_of_lt_of_le n.isLt (Nat.pow_le_pow_right (by decide) (by omega))
  have hshift : 2 ^ (4 * ns.length) * n.toNat < 2 ^ w :=
    calc 2 ^ (4 * ns.length) * n.toNat
      _ < 2 ^ (4 * ns.length) * 2 ^ 4 := Nat.mul_lt_mul_of_pos_left n.isLt (Nat.two_pow_pos _)
      _ = 2 ^ (4 * ns.length + 4) := (Nat.pow_add ..).symm
      _ ≤ 2 ^ w := Nat.pow_le_pow_right (by decide) hroom
  have hdigit : (n.setWidth w <<< (4 * ns.length)).toNat = 2 ^ (4 * ns.length) * n.toNat := by
    rw [BitVec.toNat_shiftLeft, BitVec.toNat_setWidth, Nat.mod_eq_of_lt hwide, Nat.shiftLeft_eq, Nat.mul_comm,
      Nat.mod_eq_of_lt hshift]
  rw [insertNibble, BitVec.toNat_or, hdigit, ha, Nat.or_comm, ← Nat.two_pow_add_eq_or_of_lt (valueOfNibbles_lt ns),
    valueOfNibbles_concat, Nat.add_comm]

theorem toNat_maskTo18 (a : BitVec addrW) : (maskTo18 a).toNat = a.toNat % 2 ^ 18 := by
  rw [maskTo18, BitVec.toNat_and]
  exact Nat.and_two_pow_sub_one_eq_mod a.toNat 18

end Sys2Proof.Machine

/-! Loads (41_load_address.md R97, R101, R104). -/

namespace Sys2Proof.Machine

/-- The load in progress has taken the nibbles `ns`; with none taken, `address` may hold anything. No event is pending. -/
structure LoadHas (ns : List Nibble) (s : State) : Prop where
  clear : LatchesClear s
  index : s.loadNibbleIndex.val = ns.length
  address : ns ≠ [] → s.address.toNat = valueOfNibbles ns

theorem loadHas_nil {s : State} (hclear : LatchesClear s) (hindex : s.loadNibbleIndex = 0) : LoadHas [] s :=
  ⟨hclear, congrArg Fin.val hindex, fun h => absurd rfl h⟩

section
variable {ns : List Nibble} {s : State} (h : LoadHas ns s)
include h

/-- Steps 4 and 5 of R95: the nibbles taken with one more. -/
theorem LoadHas.toNat_accumulated (n : Nibble) : (accumulated n s).toNat = valueOfNibbles (ns ++ [n]) := by
  have hindex := h.index
  have hbase : (if s.loadNibbleIndex = 0 then 0 else s.address).toNat = valueOfNibbles ns := by
    cases ns with
    | nil => rw [if_pos (Fin.ext hindex)]; rfl
    | cons m ms =>
      rw [if_neg fun h0 => by simp [h0] at hindex]
      exact h.address (List.cons_ne_nil m ms)
  have hroom : 4 * ns.length + 4 ≤ addrW := by
    have := s.loadNibbleIndex.isLt
    unfold addrW
    omega
  rw [accumulated, hindex]
  exact toNat_insertNibble hbase n hroom

theorem LoadHas.afterLa_partial (n : Nibble) (hlen : ns.length < 4) :
    LoadHas (ns ++ [n]) (afterLa n s) ∧ (afterLa n s).addressValid = false := by
  have hindex := h.index
  have hk : s.loadNibbleIndex ≠ 4 := by omega
  refine ⟨⟨latchesClear_afterLa n h.clear, ?_, fun _ => ?_⟩, ?_⟩
  · rw [Machine.afterLa_partial n hk, List.length_append, List.length_singleton]
    dsimp only
    omega
  · rw [Machine.afterLa_partial n hk]
    exact h.toNat_accumulated n
  · rw [Machine.afterLa_partial n hk]

/-- The fifth nibble completes the load: the next one starts from nothing. -/
theorem LoadHas.afterLa_last (n : Nibble) (hlen : ns.length = 4) :
    LoadHas [] (afterLa n s) ∧ (afterLa n s).addressValid = true ∧
      (afterLa n s).address.toNat = valueOfNibbles (ns ++ [n]) % 2 ^ 18 ∧
      (afterLa n s).bankSelect.toNat = valueOfNibbles (ns ++ [n]) / 2 ^ 14 % 2 ^ 4 := by
  have hk : s.loadNibbleIndex = 4 := Fin.ext (h.index.trans hlen)
  have hclear := latchesClear_afterLa n h.clear
  rw [Machine.afterLa_last n hk] at hclear ⊢
  refine ⟨loadHas_nil hclear rfl, rfl, ?_, ?_⟩
  · rw [toNat_maskTo18, h.toNat_accumulated]
  · rw [bankOf, BitVec.extractLsb'_toNat, h.toNat_accumulated, Nat.shiftRight_eq_div_pow]

end

/-- One more nibble and, armed for start as LA leaves it, a gap without a trigger edge. -/
theorem LoadHas.run_gap {ns : List Nibble} {ws g : List EventByte} {s : State} (n : Nibble)
    (h : ∃ t, runWords ws s = .next t ∧ LoadHas ns t) (hlen : ns.length < 4) (hg : ∀ w ∈ g, NoTrigger w) :
    ∃ t, runWords (ws ++ [wordLA n] ++ g) s = .next t ∧ LoadHas (ns ++ [n]) t := by
  obtain ⟨t, hrun, hload⟩ := h
  obtain ⟨hnext, -⟩ := hload.afterLa_partial n hlen
  refine ⟨afterLa n t, ?_, hnext⟩
  rw [List.append_assoc, runWords_append hrun, List.singleton_append, runWords_cons_wordLA n hload.clear]
  exact runWords_of_noTrigger hnext.clear (afterLa_readEdgeSel n t) hg

/-- The nibbles of R97 in a register of 20 bits make their number (R45). -/
theorem toNat_fiveNibbles (n0 n1 n2 n3 n4 : Nibble) :
    (n0.setWidth 20 ||| (n1.setWidth 20 <<< 4) ||| (n2.setWidth 20 <<< 8) ||| (n3.setWidth 20 <<< 12) |||
      (n4.setWidth 20 <<< 16)).toNat = valueOfNibbles [n0, n1, n2, n3, n4] := by
  have h1 : (n0.setWidth 20).toNat = valueOfNibbles [n0] := by
    rw [BitVec.toNat_setWidth_of_le (by decide)]
    rfl
  have h2 := toNat_insertNibble h1 n1 (by simp)
  have h3 := toNat_insertNibble h2 n2 (by simp)
  have h4 := toNat_insertNibble h3 n3 (by simp)
  exact toNat_insertNibble h4 n4 (by simp)

/-- Settles O18: nibble by nibble, each gap leaving the state alone, and the fifth completes the load. -/
theorem fiveNibblesLoadTheAddress : Obligations.FiveNibblesLoadTheAddress := by
  unfold Obligations.FiveNibblesLoadTheAddress
  intro s n0 n1 n2 n3 n4 g1 g2 g3 g4 hclear hindex hgaps
  simp only [List.forall_mem_append] at hgaps
  obtain ⟨⟨⟨hg1, hg2⟩, hg3⟩, hg4⟩ := hgaps
  have h0 : ∃ t, runWords [] s = .next t ∧ LoadHas [] t := ⟨s, rfl, loadHas_nil hclear hindex⟩
  have h1 := LoadHas.run_gap n0 h0 (by decide) hg1
  have h2 := LoadHas.run_gap n1 h1 (by simp) hg2
  have h3 := LoadHas.run_gap n2 h2 (by simp) hg3
  obtain ⟨t, hrun, hload⟩ := LoadHas.run_gap n3 h3 (by simp) hg4
  obtain ⟨hnext, hvalid, haddress, hbank⟩ := hload.afterLa_last n4 rfl
  refine ⟨afterLa n4 t, ?_, ?_, ?_, hvalid, Fin.ext hnext.index, afterLa_transferActive n4 t, afterLa_bankOwnsBus n4 t,
    dataOut_afterLa n4 t, afterLa_readEdgeSel n4 t⟩
  · exact (runWords_append hrun _).trans (runWords_cons_wordLA n4 hload.clear [])
  · apply BitVec.eq_of_toNat_eq
    rw [haddress, BitVec.toNat_setWidth_of_le (by decide), BitVec.extractLsb'_toNat, toNat_fiveNibbles]
    rfl
  · apply BitVec.eq_of_toNat_eq
    rw [hbank, BitVec.extractLsb'_toNat, toNat_fiveNibbles, Nat.shiftRight_eq_div_pow]
    rfl

/-- The nibbles of a run that the load in progress has taken: those after the last multiple of five. -/
def openLoad (ns : List Nibble) : List Nibble := ns.drop (ns.length - ns.length % 5)

theorem length_openLoad (ns : List Nibble) : (openLoad ns).length = ns.length % 5 := by
  rw [openLoad, List.length_drop]
  omega

theorem openLoad_concat {ns : List Nibble} (n : Nibble) (h : ns.length % 5 ≠ 4) : openLoad (ns ++ [n]) = openLoad ns ++ [n] := by
  have hstart : (ns ++ [n]).length - (ns ++ [n]).length % 5 = ns.length - ns.length % 5 := by
    rw [List.length_append, List.length_singleton]
    omega
  rw [openLoad, hstart, List.drop_append_of_le_length (by omega)]
  rfl

theorem openLoad_of_dvd {ns : List Nibble} (h : ns.length % 5 = 0) : openLoad ns = [] := by
  rw [← List.length_eq_zero_iff, length_openLoad, h]

/-- What R104 says of the state after the nibbles `ns`, with what the next nibble needs. -/
structure RunResult (ns : List Nibble) (t : State) : Prop where
  load : LoadHas (openLoad ns) t
  valid : ns ≠ [] → t.addressValid = decide (ns.length % 5 = 0)
  complete : ns ≠ [] → ns.length % 5 = 0 → t.address.toNat = valueOfNibbles (ns.drop (ns.length - 5)) % 2 ^ 18

theorem RunResult.concat {ns : List Nibble} {t : State} (h : RunResult ns t) (n : Nibble) : RunResult (ns ++ [n]) (afterLa n t) := by
  have hlen := length_openLoad ns
  have hconcat : (ns ++ [n]).length = ns.length + 1 := by simp
  by_cases hlast : ns.length % 5 = 4
  · obtain ⟨hload, hvalid, haddress, -⟩ := h.load.afterLa_last n (hlen.trans hlast)
    have hdvd : (ns ++ [n]).length % 5 = 0 := by omega
    have hfive : openLoad ns ++ [n] = (ns ++ [n]).drop ((ns ++ [n]).length - 5) := by
      rw [openLoad, List.drop_append_of_le_length (by omega), hlast, hconcat, Nat.add_sub_add_right]
    rw [hfive] at haddress
    refine ⟨?_, fun _ => by rw [hvalid, hdvd]; rfl, fun _ _ => haddress⟩
    rwa [openLoad_of_dvd hdvd]
  · obtain ⟨hload, hvalid⟩ := h.load.afterLa_partial n (by omega)
    have hopen : (ns ++ [n]).length % 5 ≠ 0 := by omega
    refine ⟨?_, fun _ => by rw [hvalid, decide_eq_false hopen], fun _ hdvd => absurd hdvd hopen⟩
    rwa [openLoad_concat n hlast]

/-- R104 along a run from index 0. -/
theorem runWords_nibbles {s : State} (h : LoadHas [] s) (ns : List Nibble) :
    ∃ t, runWords (ns.map wordLA) s = .next t ∧ RunResult ns t := by
  induction ns using List.reverseRecOn with
  | nil => exact ⟨s, rfl, h, fun hne => absurd rfl hne, fun hne => absurd rfl hne⟩
  | append_singleton ns n ih =>
    obtain ⟨t, hrun, hresult⟩ := ih
    refine ⟨afterLa n t, ?_, hresult.concat n⟩
    rw [List.map_append, runWords_append hrun]
    exact runWords_cons_wordLA n hresult.load.clear []

/-- Settles O19, by induction on the nibbles from the last one. -/
theorem nibbleRunCountsModuloFive : Obligations.NibbleRunCountsModuloFive := by
  unfold Obligations.NibbleRunCountsModuloFive
  intro s ns hclear hindex hne
  dsimp only
  obtain ⟨t, hrun, hload, hvalid, hcomplete⟩ := runWords_nibbles (loadHas_nil hclear hindex) ns
  refine ⟨t, hrun, hload.index.trans (length_openLoad ns), hvalid hne, ?_⟩
  split
  case isTrue hdvd => exact hcomplete hne hdvd
  case isFalse hopen =>
    refine hload.address fun hnil => hopen ?_
    rw [← length_openLoad, hnil, List.length_nil]

/-- Nibbles that do not complete the load in progress keep `bankSelect` and make no address valid. -/
theorem runWords_nibbles_partial (ns : List Nibble) {s : State} (hclear : LatchesClear s) (hvalid : s.addressValid = false)
    (hlen : s.loadNibbleIndex.val + ns.length ≤ 4) :
    ∃ u, runWords (ns.map wordLA) s = .next u ∧ u.bankSelect = s.bankSelect ∧ u.addressValid = false := by
  induction ns generalizing s with
  | nil => exact ⟨s, rfl, rfl, hvalid⟩
  | cons n ns ih =>
    rw [List.length_cons] at hlen
    have hclear' := latchesClear_afterLa n hclear
    rw [List.map_cons, runWords_cons_wordLA n hclear]
    rw [afterLa_partial n (by omega)] at hclear' ⊢
    exact ih hclear' rfl (by dsimp only; omega)

/-- Settles O20: the address was valid, so the nibble is the first of a load, which the three after it do not complete. -/
theorem sixthNibbleStartsOver : Obligations.SixthNibbleStartsOver := by
  unfold Obligations.SixthNibbleStartsOver
  intro s n ns hclear hvalid hzero hlen
  have hk : s.loadNibbleIndex = 0 := hzero hvalid
  obtain ⟨hindex, haddress⟩ := afterLa_first n hk
  have hpartial := afterLa_partial n (s := s) (by rw [hk]; decide)
  have hbank : (afterLa n s).bankSelect = s.bankSelect := by rw [hpartial]
  have hinvalid : (afterLa n s).addressValid = false := by rw [hpartial]
  obtain ⟨u, hrun, hsame, hnone⟩ :=
    runWords_nibbles_partial ns (latchesClear_afterLa n hclear) hinvalid (by rw [hindex]; omega)
  exact ⟨afterLa n s, u, exec_la n s, haddress, hindex, hinvalid, (runWords_cons_wordLA n hclear _).trans hrun,
    hsame.trans hbank, hnone⟩

end Sys2Proof.Machine

/-! READ DATA (42_read_data.md R106 to R109): `Fetch()` with `TOP_WRAP` = `slice`, and the next states of the dummy, the start and the
clock pulse. -/

namespace Sys2Proof.Machine

/-- With `TOP_WRAP` = `slice` the bank compare of R106 alone decides. -/
theorem ownsAddress_iff_of_slice {w : Nat} {c : Config} (h : c.topWrap = .slice) (a : BitVec w) :
    ownsAddress c a = true ↔ bankOf a = c.bankId := by
  unfold ownsAddress
  rw [h]
  exact beq_iff_eq

/-- Settles O22: `Fetch()` branches on the bank compare. -/
theorem fetchResolvesTheBank : Obligations.FetchResolvesTheBank := by
  unfold Obligations.FetchResolvesTheBank
  intro s hslice
  unfold fetch
  exact if_congr (ownsAddress_iff_of_slice hslice s.address) rfl rfl

/-- Settles O24: the row's round trip, and R107 is the meaning of RD.DUMMY itself. -/
theorem dummyPulseZeroesLoadProgress : Obligations.DummyPulseZeroesLoadProgress := by
  unfold Obligations.DummyPulseZeroesLoadProgress
  exact fun x s => ⟨Laws.RoundTrip.rdDummy x _ rfl, rfl⟩

/-- Settles O25: the row's round trip, and RD.START as one update. -/
theorem startPulseOpensSession : Obligations.StartPulseOpensSession := by
  unfold Obligations.StartPulseOpensSession
  intro x s
  refine ⟨Laws.RoundTrip.rdStart x _ rfl, ?_⟩
  rw [exec_rdStart_eq, fetch_bankOwnsBus, fetch_currentByte]

/-- The next state of RD.CLK. -/
def afterClk (s : State) : State := advanceCursor (presentBit (followOwnership s))

theorem exec_rdClk (x : Nibble) (s : State) : exec (.rdClk x) s = .next (afterClk s) := rfl

/-- Steps 1 and 2 of R109 as one update. -/
theorem afterClk_eq (s : State) :
    afterClk s = advanceCursor { s with
      lineDriven := s.bankOwnsBus
      lineLevel := if s.bankOwnsBus = true then selectedBit s else s.lineLevel } :=
  Host.Outcome.next.inj (exec_rdClk_eq 0 s)

/-- Settles O26: steps 1 and 2 of R109 are one update; steps 3 and 4 are split at bit 7. -/
theorem clockPulseShiftsOneBit : Obligations.ClockPulseShiftsOneBit := by
  unfold Obligations.ClockPulseShiftsOneBit
  intro x s
  refine ⟨Laws.RoundTrip.rdClk x _ rfl, ?_⟩
  dsimp only
  rw [exec_rdClk, afterClk_eq]
  constructor
  · intro hk
    rw [advanceCursor_inside (by exact hk)]
    rfl
  · intro hk
    rw [advanceCursor_last (by exact hk)]
    rfl

@[simp] theorem afterClk_transferActive (s : State) : (afterClk s).transferActive = s.transferActive := by simp [afterClk]
@[simp] theorem afterClk_readEdgeSel (s : State) : (afterClk s).readEdgeSel = s.readEdgeSel := by simp [afterClk]
@[simp] theorem afterClk_readPending (s : State) : (afterClk s).readPending = s.readPending := by simp [afterClk]
@[simp] theorem afterClk_loadPending (s : State) : (afterClk s).loadPending = s.loadPending := by simp [afterClk]
@[simp] theorem afterClk_config (s : State) : (afterClk s).config = s.config := by simp [afterClk]

@[simp] theorem afterClk_lineDriven (s : State) : (afterClk s).lineDriven = s.bankOwnsBus := by
  rw [afterClk_eq, advanceCursor_lineDriven]

theorem afterClk_lineLevel (s : State) :
    (afterClk s).lineLevel = if s.bankOwnsBus = true then selectedBit s else s.lineLevel := by
  rw [afterClk_eq, advanceCursor_lineLevel]

@[simp] theorem afterClk_bitCursor (s : State) : (afterClk s).bitCursor = s.bitCursor + 1 := by
  rw [afterClk_eq, advanceCursor_eq]

theorem afterClk_address (s : State) :
    (afterClk s).address = if s.bitCursor = 7 then nextAddress s.address else s.address := by
  rw [afterClk_eq, advanceCursor_eq]

/-- Inside a byte the ownership flag stays. -/
theorem afterClk_bankOwnsBus_inside {s : State} (h : s.bitCursor ≠ 7) : (afterClk s).bankOwnsBus = s.bankOwnsBus := by
  rw [afterClk_eq, advanceCursor_inside (by exact h)]

/-- The line after a clock pulse: the selected bit of the owner, else `Z`. -/
theorem dataOut_afterClk (s : State) :
    dataOut (afterClk s) = if s.bankOwnsBus = true then .driven (selectedBit s) else .released := by
  unfold dataOut
  rw [afterClk_lineDriven, afterClk_lineLevel]
  cases s.bankOwnsBus <;> rfl

/-- A pulse of a device that is no owner drives nothing (R114). -/
theorem afterClk_of_not_owner {s : State} (h : s.bankOwnsBus = false) :
    dataOut (afterClk s) = .released ∧ (afterClk s).lineLevel = s.lineLevel := by
  rw [dataOut_afterClk, afterClk_lineLevel, h]
  exact ⟨rfl, rfl⟩

/-- The flag and the byte go on to be what `Fetch()` gives for `address` (R34). -/
theorem ownershipTracksAddress_afterClk {s : State} (h : OwnershipTracksAddress s) : OwnershipTracksAddress (afterClk s) := by
  intro hactive
  rw [afterClk_transferActive] at hactive
  rw [afterClk_eq]
  by_cases hk : s.bitCursor = 7
  · rw [advanceCursor_last (by exact hk), fetch_eq]
    exact ⟨rfl, rfl⟩
  · rw [advanceCursor_inside (by exact hk)]
    exact h hactive

end Sys2Proof.Machine

/-! Runs of clock pulses in a session (42_read_data.md R110, R111, R114, R116). -/

namespace Sys2Proof.Machine

/-- What a run of clock pulses needs and keeps: a session with no event pending, armed for the clock polarity (R32), whose flag and byte are
those of `address` (R34). -/
structure ClockedSession (s : State) : Prop where
  clear : LatchesClear s
  active : s.transferActive = true
  armed : s.readEdgeSel = .awaitingClock
  tracks : OwnershipTracksAddress s

theorem clockedSession_of_inv {s : State} (hinv : StateInv s) (hclear : LatchesClear s) (hactive : s.transferActive = true) :
    ClockedSession s := by
  obtain ⟨-, -, harmed, -, htracks, -⟩ := hinv
  exact ⟨hclear, hactive, harmed.2 hactive, htracks⟩

section
variable {s : State} (h : ClockedSession s)
include h

theorem ClockedSession.clockArmed : ClockArmedExactlyInSession s := ⟨fun _ => h.active, fun _ => h.armed⟩

theorem ClockedSession.afterClk : ClockedSession (afterClk s) where
  clear := ⟨(afterClk_loadPending s).trans h.clear.1, (afterClk_readPending s).trans h.clear.2⟩
  active := (afterClk_transferActive s).trans h.active
  armed := (afterClk_readEdgeSel s).trans h.armed
  tracks := ownershipTracksAddress_afterClk h.tracks

theorem ClockedSession.applyEvent_wordRC : applyEvent wordRC s = .next (Machine.afterClk s) :=
  applyEvent_wordRC_in_session h.clear h.clockArmed h.active

end

theorem ClockedSession.iterate {s : State} (h : ClockedSession s) (k : Nat) : ClockedSession (Machine.afterClk^[k] s) := by
  induction k with
  | zero => exact h
  | succ k ih =>
    rw [Function.iterate_succ_apply']
    exact ih.afterClk

/-- `k` clock pulses of a session are RD.CLK `k` times. -/
theorem ClockedSession.runWords_clocks {s : State} (h : ClockedSession s) (k : Nat) :
    runWords (clocks k) s = .next (Machine.afterClk^[k] s) := by
  induction k generalizing s with
  | zero => rfl
  | succ k ih =>
    rw [clocks, List.replicate_succ, runWords_cons h.applyEvent_wordRC]
    exact ih h.afterClk

/-- Clock pulses count bits modulo 8 (R116). -/
theorem bitCursor_iterate_afterClk (k : Nat) (s : State) : (afterClk^[k] s).bitCursor.val = (s.bitCursor.val + k) % 8 := by
  induction k with
  | zero => exact (Nat.mod_eq_of_lt s.bitCursor.isLt).symm
  | succ k ih =>
    rw [Function.iterate_succ_apply', afterClk_bitCursor, Fin.val_add, ih]
    exact Nat.mod_add_mod (s.bitCursor.val + k) 8 1

/-- The address advances, unmasked, with every eighth bit (R111). -/
theorem address_iterate_afterClk (k : Nat) (s : State) :
    (afterClk^[k] s).address = s.address + BitVec.ofNat addrW ((s.bitCursor.val + k) / 8) := by
  induction k with
  | zero =>
    have hbyte : (s.bitCursor.val + 0) / 8 = 0 := by omega
    rw [hbyte]
    exact (BitVec.add_zero _).symm
  | succ k ih =>
    have hcursor := bitCursor_iterate_afterClk k s
    rw [Function.iterate_succ_apply', afterClk_address, ih]
    split
    case isTrue hk =>
      have hlast : (s.bitCursor.val + k) % 8 = 7 := hcursor.symm.trans (congrArg Fin.val hk)
      have hbyte : (s.bitCursor.val + (k + 1)) / 8 = (s.bitCursor.val + k) / 8 + 1 := by omega
      rw [hbyte, BitVec.ofNat_add, nextAddress, BitVec.add_assoc]
    case isFalse hk =>
      have hbyte : (s.bitCursor.val + (k + 1)) / 8 = (s.bitCursor.val + k) / 8 := by omega
      rw [hbyte]

theorem config_iterate_afterClk (k : Nat) (s : State) : (afterClk^[k] s).config = s.config := by
  induction k with
  | zero => rfl
  | succ k ih => rw [Function.iterate_succ_apply', afterClk_config, ih]

/-- Settles O28: the counts of `k` RD.CLK, and the session is kept. -/
theorem clockPulsesCountBitsAndBytes : Obligations.ClockPulsesCountBitsAndBytes := by
  unfold Obligations.ClockPulsesCountBitsAndBytes
  intro s hinv hclear hactive k
  have h := clockedSession_of_inv hinv hclear hactive
  exact ⟨_, h.runWords_clocks k, bitCursor_iterate_afterClk k s, address_iterate_afterClk k s, (h.iterate k).active⟩

/-- The start pulse of an armed device opens a session at bit 0 of the byte at `address` (R108). -/
theorem start_of_armed {s : State} (hinv : StateInv s) (hclear : LatchesClear s) (harmed : phaseOf s = .armed) :
    ∃ u, applyEvent wordRS s = .next u ∧ ClockedSession u ∧ u.bitCursor = 0 ∧ u.address = s.address ∧ u.config = s.config := by
  obtain ⟨-, -, hsel, -⟩ := hinv
  obtain ⟨hactive, hvalid⟩ := (phaseOf_eq_armed_iff s).1 harmed
  rw [applyEvent_wordRS_outside_session hclear hsel hactive, hvalid]
  exact ⟨_, exec_rdStart_eq 0 s, ⟨hclear, rfl, rfl, fun _ => ⟨rfl, rfl⟩⟩, rfl, rfl, rfl⟩

/-- The bit that the next clock pulse of a session puts out, in terms of `address` (R109 with R34). -/
theorem ClockedSession.dataOut_afterClk {s : State} (h : ClockedSession s) (hslice : s.config.topWrap = .slice) :
    dataOut (Machine.afterClk s) =
      if bankOf s.address = s.config.bankId then
        .driven ((s.config.rom.read (offsetOf s.address)).getLsbD s.bitCursor.val)
      else .released := by
  obtain ⟨hown, hbyte⟩ := h.tracks h.active
  rw [Machine.dataOut_afterClk, selectedBit, hbyte, hown]
  simp only [ownsAddress_iff_of_slice hslice]
  split <;> rfl

/-- Settles O27: the start pulse opens the session at bit 0, `k` pulses lead to bit `k` modulo 8 of the byte `k / 8` further, and the next
one puts it out. -/
theorem sessionPutsOutTheRomBits : Obligations.SessionPutsOutTheRomBits := by
  unfold Obligations.SessionPutsOutTheRomBits
  intro s hinv hclear harmed hslice k
  dsimp only
  obtain ⟨u, hstart, hu, hcursor, haddress, hconfig⟩ := start_of_armed hinv hclear harmed
  have hbefore : ClockedSession (afterClk^[k] u) := hu.iterate k
  have hafter : ClockedSession (afterClk^[k + 1] u) := hu.iterate (k + 1)
  have hconfig' : (afterClk^[k] u).config = s.config := (config_iterate_afterClk k u).trans hconfig
  refine ⟨afterClk^[k + 1] u, ?_, ?_, applyEvent_wordRS_in_session hafter.clear hafter.clockArmed hafter.active⟩
  · exact (runWords_cons hstart _).trans (hu.runWords_clocks (k + 1))
  · rw [Function.iterate_succ_apply', hbefore.dataOut_afterClk (by rw [hconfig', hslice]), hconfig',
      bitCursor_iterate_afterClk, address_iterate_afterClk, hcursor, haddress, Fin.val_zero, Nat.zero_add]
    rfl

/-- Over the first byte of a session that is not owned the line stays released, and up to its last pulse the flag stays false (R114). -/
theorem unowned_first_byte {s : State} (hown : s.bankOwnsBus = false) (hcursor : s.bitCursor = 0) (hline : s.lineDriven = false)
    {k : Nat} (hk : k ≤ 8) :
    dataOut (afterClk^[k] s) = .released ∧ (afterClk^[k] s).lineLevel = s.lineLevel ∧
      (k < 8 → (afterClk^[k] s).bankOwnsBus = false) := by
  induction k with
  | zero => exact ⟨dataOut_of_released hline, rfl, fun _ => hown⟩
  | succ k ih =>
    obtain ⟨-, hlevel, hflag⟩ := ih (by omega)
    have hnotOwner := hflag (by omega)
    obtain ⟨hdata, hkept⟩ := afterClk_of_not_owner hnotOwner
    rw [Function.iterate_succ_apply']
    refine ⟨hdata, hkept.trans hlevel, fun hlt => ?_⟩
    have hinside : (afterClk^[k] s).bitCursor ≠ 7 := by
      have hcount := bitCursor_iterate_afterClk k s
      rw [hcursor, Fin.val_zero] at hcount
      omega
    rw [afterClk_bankOwnsBus_inside hinside, hnotOwner]

/-- Settles O30: each pulse without ownership drives nothing, and in the first byte no pulse brings ownership before the eighth. -/
theorem sentinelIsNeverDriven : Obligations.SentinelIsNeverDriven := by
  unfold Obligations.SentinelIsNeverDriven
  intro s x hown
  refine ⟨⟨afterClk s, exec_rdClk x s, afterClk_of_not_owner hown⟩, fun hinv hclear hactive hcursor hline k hk => ?_⟩
  obtain ⟨hdata, hlevel, -⟩ := unowned_first_byte hown hcursor hline hk
  exact ⟨_, (clockedSession_of_inv hinv hclear hactive).runWords_clocks k, hdata, hlevel⟩

end Sys2Proof.Machine

/-! What an input of a host that keeps R167 and R168 can do, and with it R113 and R115. -/

namespace Sys2Proof.Machine

/-- The words that R60 and R168 allow: a LOAD edge, a READ edge of either polarity, or none. -/
theorem allowedWord_cases {w : EventByte} (h : allowedWord w = true) :
    (∃ n, w = wordLA n) ∨ (∃ (p : Bool) (x : Nibble), w = 0b001#3 ++ BitVec.ofBool p ++ x) ∨ ∃ x : Nibble, w = 0b0000#4 ++ x := by
  have hopcode : w.extractLsb' 4 4 = 0b0100#4 ∨ w.extractLsb' 4 4 = 0b0010#4 ∨ w.extractLsb' 4 4 = 0b0011#4 ∨
      w.extractLsb' 4 4 = 0b0000#4 := by
    revert w
    decide
  have hw := eq_append_nibbles w
  obtain hc | hc | hc | hc := hopcode
  · exact .inl ⟨_, by rwa [hc] at hw⟩
  · exact .inr (.inl ⟨false, _, by rwa [hc] at hw⟩)
  · exact .inr (.inl ⟨true, _, by rwa [hc] at hw⟩)
  · exact .inr (.inr ⟨_, by rwa [hc] at hw⟩)

/-- A READ edge alone runs the handler's branch if it is of the armed polarity, else nothing (R81, R82). -/
theorem applyEvent_readEdge {s : State} (hclear : LatchesClear s) (p : Bool) (x : Nibble) :
    applyEvent (0b001#3 ++ BitVec.ofBool p ++ x) s =
      if s.readEdgeSel = armedFor p then exec (readBranch (decodeCtx s) x) s else .next s := by
  rw [applyEvent_of_clear hclear, decode_readEdge]
  exact exec_decodeReadEdge (decodeCtx s) p x s

/-- An instant without an edge changes nothing (R67). -/
theorem applyEvent_noedge {s : State} (hclear : LatchesClear s) (x : Nibble) : applyEvent (0b0000#4 ++ x) s = .next s := by
  have hdecode : decode (decodeCtx s) (0b0000#4 ++ x) = .ok (.noedge x) := Laws.RoundTrip.noedge x _ rfl
  rw [applyEvent_of_clear hclear, hdecode]
  rfl

/-- An allowed word runs LA, or nothing, or the handler's branch (R86). -/
theorem applyEvent_of_allowedWord {s : State} {w : EventByte} (hclear : LatchesClear s) (hw : allowedWord w = true) :
    (∃ n, applyEvent w s = exec (.la n) s) ∨ applyEvent w s = .next s ∨
      ∃ x, applyEvent w s = exec (readBranch (decodeCtx s) x) s := by
  obtain ⟨n, rfl⟩ | ⟨p, x, rfl⟩ | ⟨x, rfl⟩ := allowedWord_cases hw
  · exact .inl ⟨n, applyEvent_wordLA hclear n⟩
  · by_cases hsel : s.readEdgeSel = armedFor p
    · exact .inr (.inr ⟨x, (applyEvent_readEdge hclear p x).trans (if_pos hsel)⟩)
    · exact .inr (.inl ((applyEvent_readEdge hclear p x).trans (if_neg hsel)))
  · exact .inr (.inl (applyEvent_noedge hclear x))

/-- So does any input but `RESET`. -/
theorem applyInput_of_hostRules {s : State} {i : Input} (hclear : LatchesClear s) (hi : obeysHostRules s.config i = true) :
    (∃ w, i = .reset w) ∨ (∃ n, applyInput i s = exec (.la n) s) ∨ applyInput i s = .next s ∨
      ∃ x, applyInput i s = exec (readBranch (decodeCtx s) x) s := by
  cases i with
  | event w => exact .inr (applyEvent_of_allowedWord hclear hi)
  | edges e => exact .inr (applyEvent_of_allowedWord hclear hi)
  | capture w => cases hi
  | dispatch ad => cases hi
  | reset w => exact .inl ⟨w, rfl⟩

/-- Settles O43: of what such an input can do, no edge without effect and no clock pulse ends a session. -/
theorem sessionEndsOnlyByLoadOrReset : Obligations.SessionEndsOnlyByLoadOrReset := by
  unfold Obligations.SessionEndsOnlyByLoadOrReset
  intro s t i _ hclear hi hactive ht hended
  obtain hreset | hla | hsame | ⟨x, hread⟩ := applyInput_of_hostRules hclear hi
  · exact .inl hreset
  · exact .inr hla
  · rw [hsame] at ht
    cases ht
    rw [hactive] at hended
    cases hended
  · have hclk : exec (readBranch (decodeCtx s) x) s = .next (afterClk s) := by
      rw [exec_readBranch, hactive]
      rfl
    rw [hread, hclk] at ht
    cases ht
    rw [afterClk_transferActive, hactive] at hended
    cases hended

/-- LA brings the nibble count to 0 by completing a load only. -/
theorem load_completed_of_index_zero {n : Nibble} {s : State} (h : (afterLa n s).loadNibbleIndex = 0) :
    s.loadNibbleIndex = 4 ∧ (afterLa n s).addressValid = true := by
  by_cases hk : s.loadNibbleIndex = 4
  · rw [afterLa_last n hk]
    exact ⟨hk, rfl⟩
  · rw [afterLa_partial n hk] at h
    dsimp only at h
    omega

/-- While a load is in progress there is neither a valid address (R30) nor a session (R31). -/
theorem no_session_while_loading {s : State} (hinv : StateInv s) (hk : s.loadNibbleIndex ≠ 0) :
    s.addressValid = false ∧ s.transferActive = false := by
  obtain ⟨hindex, hsession, -⟩ := hinv
  have hvalid : s.addressValid = false := Bool.eq_false_iff.2 fun hv => hk (hindex hv)
  exact ⟨hvalid, Bool.eq_false_iff.2 fun ha => Bool.eq_false_iff.1 hvalid (hsession ha)⟩

/-- Settles O32: while a load is in progress the handler's branch is the dummy pulse; LA zeroes the count by completing the load only. -/
theorem startEdgeAbortsLoad : Obligations.StartEdgeAbortsLoad := by
  unfold Obligations.StartEdgeAbortsLoad
  intro s hinv hclear hk
  obtain ⟨hvalid, hactive⟩ := no_session_while_loading hinv hk
  constructor
  · obtain ⟨-, -, harmed, -⟩ := hinv
    rw [applyEvent_wordRS_outside_session hclear harmed hactive]
    exact if_pos hvalid
  · intro i t hi ht hzero
    obtain hreset | ⟨n, hla⟩ | hsame | ⟨x, hread⟩ := applyInput_of_hostRules hclear hi
    · exact .inr (.inr hreset)
    · rw [hla, exec_la] at ht
      cases ht
      exact .inl (load_completed_of_index_zero hzero)
    · rw [hsame] at ht
      cases ht
      exact absurd hzero hk
    · rw [hread, exec_readBranch, hactive, hvalid] at ht
      exact .inr (.inl (Host.Outcome.next.inj ht).symm)

end Sys2Proof.Machine

/-! `DATA` (43_bus_arbiter.md R120, R124): which commands change it, and how it lags the ownership flag at the end of a byte. -/

namespace Sys2Proof.Machine

theorem dataOut_of_driven {s : State} (h : s.lineDriven = true) : dataOut s = .driven s.lineLevel := by
  unfold dataOut
  rw [h]
  rfl

theorem dataOut_of_exec {i : Instr} {s t : State} (hla : ∀ n, i ≠ .la n) (hclk : ∀ x, i ≠ .rdClk x) (h : exec i s = .next t) :
    dataOut t = dataOut s := by
  cases i with
  | la n => exact absurd rfl (hla n)
  | rdDummy x => cases h; rfl
  | rdStart x => rw [exec_rdStart_eq] at h; cases h; rfl
  | rdIgnS x => cases h; rfl
  | rdClk x => exact absurd rfl (hclk x)
  | rdIgnC x => cases h; rfl
  | ia p n => cases h
  | noedge x => cases h; rfl

/-- Settles O39: the two cases of R120, LA's release, and the commands that leave the line alone. -/
theorem dataLineChangesOnlyInLoadAndClock : Obligations.DataLineChangesOnlyInLoadAndClock := by
  unfold Obligations.DataLineChangesOnlyInLoadAndClock
  refine fun s => ⟨dataOut_of_released, dataOut_of_driven, fun i t h => ⟨?_, fun hla hclk => dataOut_of_exec hla hclk h⟩⟩
  rintro ⟨n, rfl⟩
  rw [exec_la] at h
  cases h
  exact dataOut_afterLa n s

/-- The pulse of a session's bit 7 leaves flag and byte as `Fetch()` gives them for the next address, at bit 0 (R109 step 4). -/
theorem afterClk_last {s : State} (htracks : OwnershipTracksAddress s) (hactive : s.transferActive = true) (hk : s.bitCursor = 7) :
    (afterClk s).bitCursor = 0 ∧ (afterClk s).address = nextAddress s.address ∧
      (afterClk s).bankOwnsBus = ownsAddress s.config (nextAddress s.address) ∧
      (afterClk s).currentByte =
        if (afterClk s).bankOwnsBus = true then s.config.rom.read (offsetOf (nextAddress s.address)) else 0xFF := by
  have haddress : (afterClk s).address = nextAddress s.address := (afterClk_address s).trans (if_pos hk)
  obtain ⟨hown, hbyte⟩ := ownershipTracksAddress_afterClk htracks ((afterClk_transferActive s).trans hactive)
  rw [afterClk_config, haddress] at hown hbyte
  refine ⟨?_, haddress, hown, hbyte⟩
  rw [afterClk_bitCursor, hk]
  rfl

/-- Settles O29: each pulse puts out the bit selected by the flag and the byte of the state before it, so the new flag and byte show one
pulse later. -/
theorem lineLagsOwnershipByOnePulse : Obligations.LineLagsOwnershipByOnePulse := by
  unfold Obligations.LineLagsOwnershipByOnePulse
  intro s x y n hinv hactive hk
  obtain ⟨-, -, -, -, htracks, -⟩ := hinv
  obtain ⟨hcursor, -, hown, hbyte⟩ := afterClk_last htracks hactive hk
  refine ⟨_, _, _, exec_rdClk x s, exec_rdClk y _, exec_la n _, hown, hbyte, ?_, ?_, dataOut_afterLa n _⟩
  · rw [dataOut_afterClk, selectedBit, hk]
    rfl
  · rw [dataOut_afterClk, selectedBit, hcursor]
    rfl

end Sys2Proof.Machine

/-! Clock pulses on the multi-drop bus (43_bus_arbiter.md R126, R128): a pulse of devices in a session, and the hand-over at a bank
boundary. -/

namespace Sys2Proof.Machine

/-- Outputs of which no two are driven do not contend (R126). -/
theorem resolve_ne_contention {outs : List DataOut} (h : outs.Pairwise fun a b => a = .released ∨ b = .released) :
    resolve outs ≠ .contention := by
  have hdriven : (drivenLevels outs).Pairwise fun _ _ => False := by
    refine h.filterMap _ fun a b hab c hc d hd => ?_
    obtain rfl | rfl := hab
    · cases hc
    · cases hd
  unfold resolve
  split
  case h_1 => nofun
  case h_2 => nofun
  case h_3 b c r hbc =>
    rw [hbc] at hdriven
    exact (List.rel_of_pairwise_cons hdriven List.mem_cons_self).elim

theorem applyToAll_wordRC {ds : List State} (h : ∀ d ∈ ds, ClockedSession d) :
    applyToAll (.event wordRC) ds = .next (ds.map afterClk) := by
  induction ds with
  | nil => rfl
  | cons d ds ih =>
    rw [List.forall_mem_cons] at h
    have hd : applyInput (.event wordRC) d = .next (afterClk d) := h.1.applyEvent_wordRC
    rw [applyToAll, hd, ih h.2]
    rfl

/-- A clock pulse reaches every device of a session; with at most one owner at most one drives the line after it. -/
theorem System.apply_wordRC {y : System} (hclocked : ∀ d ∈ y.devices, ClockedSession d)
    (howner : y.devices.Pairwise fun d e => d.bankOwnsBus = false ∨ e.bankOwnsBus = false) :
    System.apply (.event wordRC) y = .next { y with devices := y.devices.map afterClk } := by
  have hquiet : resolve ((y.devices.map afterClk).map dataOut) ≠ .contention := by
    refine resolve_ne_contention ?_
    rw [List.map_map, List.pairwise_map]
    exact howner.imp (Or.imp (fun h => (afterClk_of_not_owner h).1) fun h => (afterClk_of_not_owner h).1)
  rw [System.apply, applyToAll_wordRC hclocked]
  exact if_neg hquiet

theorem ClockedSession.bankOwnsBus_iff {s : State} (h : ClockedSession s) (hslice : s.config.topWrap = .slice) :
    s.bankOwnsBus = true ↔ bankOf s.address = s.config.bankId := by
  rw [(h.tracks h.active).1]
  exact ownsAddress_iff_of_slice hslice s.address

theorem toNat_nextAddress (a : BitVec addrW) : (nextAddress a).toNat = (a.toNat + 1) % 2 ^ 32 := BitVec.toNat_add a 1

/-- After the last byte of a bank comes the first byte of the next, bank 0 after bank 15 (R11, R52). -/
theorem nextAddress_at_bank_end {a : BitVec addrW} (h : offsetOf a = 0x3FFF) :
    bankOf (nextAddress a) = bankOf a + 1 ∧ offsetOf (nextAddress a) = 0 := by
  have hoffset : a.toNat % 2 ^ 14 = 0x3FFF := by simpa [offsetOf] using congrArg BitVec.toNat h
  constructor
  · refine BitVec.eq_of_toNat_eq ?_
    rw [BitVec.toNat_add, bankOf, bankOf, BitVec.extractLsb'_toNat, BitVec.extractLsb'_toNat, toNat_nextAddress,
      Nat.shiftRight_eq_div_pow, Nat.shiftRight_eq_div_pow]
    change (a.toNat + 1) % 2 ^ 32 / 2 ^ 14 % 2 ^ 4 = (a.toNat / 2 ^ 14 % 2 ^ 4 + 1) % 2 ^ 4
    omega
  · refine BitVec.eq_of_toNat_eq ?_
    rw [offsetOf, BitVec.extractLsb'_toNat, toNat_nextAddress, Nat.shiftRight_zero]
    change (a.toNat + 1) % 2 ^ 32 % 2 ^ 14 = 0
    omega

/-- Settles O55: with X's last bit the address passes to Y's bank, and each pulse puts out the bit of the owner before it. -/
theorem handOverAtBankBoundary : Obligations.HandOverAtBankBoundary := by
  unfold Obligations.HandOverAtBankBoundary
  intro X Y f k hbus hsliceX hsliceY hactive hcursor hbank hoffset hnext
  obtain ⟨hdevices, hdiffer, hsame, hboth⟩ := hbus
  obtain ⟨⟨hinvX, hclearX⟩, hrest⟩ := List.forall_mem_cons.1 hdevices
  obtain ⟨hinvY, hclearY⟩ := List.forall_mem_singleton.1 hrest
  obtain ⟨haddress, -, -, hactiveY, hcursorY, -⟩ := List.pairwise_pair.1 hsame
  have hX : ClockedSession X := clockedSession_of_inv hinvX hclearX hactive
  have hY : ClockedSession Y := clockedSession_of_inv hinvY hclearY (hactiveY.symm.trans hactive)
  obtain ⟨-, haddressX1, -⟩ := afterClk_last hX.tracks hX.active hcursor
  obtain ⟨hcursorY1, haddressY1, -⟩ := afterClk_last hY.tracks hY.active (hcursorY.symm.trans hcursor)
  rw [← haddress] at haddressY1
  obtain ⟨hbankNext, hoffsetNext⟩ := nextAddress_at_bank_end hoffset
  rw [hbank, ← hnext] at hbankNext
  have hownX : X.bankOwnsBus = true := (hX.bankOwnsBus_iff hsliceX).2 hbank
  have hownY : Y.bankOwnsBus = false := Bool.eq_false_iff.2 fun h => (List.pairwise_pair.1 hboth).1 ⟨hownX, h⟩
  have hownX1 : (afterClk X).bankOwnsBus = false := by
    rw [Bool.eq_false_iff, ne_eq, hX.afterClk.bankOwnsBus_iff (by rw [afterClk_config, hsliceX]), haddressX1, hbankNext,
      afterClk_config]
    exact (List.pairwise_pair.1 hdiffer).symm
  have hownY1 : (afterClk Y).bankOwnsBus = true := by
    rw [hY.afterClk.bankOwnsBus_iff (by rw [afterClk_config, hsliceY]), haddressY1, hbankNext, afterClk_config]
  refine ⟨afterClk X, afterClk Y, afterClk (afterClk X), afterClk (afterClk Y), ?_, ?_, hownX1, hownY1, ?_,
    (afterClk_of_not_owner hownY).1, (afterClk_of_not_owner hownX1).1, ?_⟩
  · exact System.apply_wordRC (List.forall_mem_cons.2 ⟨hX, List.forall_mem_singleton.2 hY⟩) (List.pairwise_pair.2 (.inr hownY))
  · exact System.apply_wordRC (List.forall_mem_cons.2 ⟨hX.afterClk, List.forall_mem_singleton.2 hY.afterClk⟩)
      (List.pairwise_pair.2 (.inl hownX1))
  · rw [dataOut_afterClk, if_pos hownX, selectedBit, hcursor]
    rfl
  · rw [hY.afterClk.dataOut_afterClk (by rw [afterClk_config, hsliceY]), haddressY1, hbankNext, hoffsetNext, hcursorY1,
      afterClk_config]
    exact if_pos rfl

end Sys2Proof.Machine

/-! What the block does not do (44_unsupported.md R135, R137): INDIRECT ADDRESS has no meaning, and beside `RESET` four commands alone change
the state. -/

namespace Sys2Proof.Machine

/-- The Read-Data Handler is one of three commands (R87). -/
theorem readBranch_cases (c : DecodeCtx) (x : Nibble) :
    readBranch c x = .rdDummy x ∨ readBranch c x = .rdStart x ∨ readBranch c x = .rdClk x := by
  unfold readBranch
  split
  · exact .inr (.inr rfl)
  · split
    · exact .inr (.inl rfl)
    · exact .inl rfl

/-- Settles O42: such an input runs LA or the handler's branch, or else leaves the state as it is. -/
theorem onlyFourCommandsAndResetChangeState : Obligations.OnlyFourCommandsAndResetChangeState := by
  unfold Obligations.OnlyFourCommandsAndResetChangeState
  intro s t i hclear hi ht hne
  obtain hreset | ⟨n, hla⟩ | hsame | ⟨x, hread⟩ := applyInput_of_hostRules hclear hi
  · exact .inl hreset
  · exact .inr ⟨_, hla, .inl ⟨n, rfl⟩⟩
  · rw [hsame] at ht
    cases ht
    exact absurd rfl hne
  · refine .inr ⟨_, hread, .inr ?_⟩
    obtain hdummy | hstart | hclk := readBranch_cases (decodeCtx s) x
    · exact .inl ⟨x, hdummy⟩
    · exact .inr (.inl ⟨x, hstart⟩)
    · exact .inr (.inr ⟨x, hclk⟩)

theorem captureEdges_ia (p : Bool) (n : Nibble) (s : State) : captureEdges (.ia p n) s = .refused .indirectAddress := rfl

theorem exec_ia (p : Bool) (n : Nibble) (s : State) : exec (.ia p n) s = .refused .indirectAddress := rfl

/-- Both edges at once are refused in every state: on their capture where an event is pending, else by the command. -/
theorem applyEvent_wordIA_any_state (p : Bool) (n : Nibble) (s : State) :
    applyEvent (wordIA p n) s = .refused .indirectAddress := by
  unfold applyEvent
  rw [decode_wordIA]
  dsimp only
  split
  · rw [captureEdges_ia]
  · exact exec_ia p n s

/-- The word of R66, written with its polarity bit, is the word `IA n` of a trace (R74). -/
theorem wordIA_eq (p : Bool) (n : Nibble) : 0b011#3 ++ BitVec.ofBool p ++ n = wordIA p n := by
  cases p <;> rfl

/-- Settles O35: the word is the row's own in every state, and neither the command nor the capture of its edges has a next state. -/
theorem indirectAddressIsRefused : Obligations.IndirectAddressIsRefused := by
  unfold Obligations.IndirectAddressIsRefused
  intro p n s
  refine ⟨fun c => ?_, exec_ia p n s, applyEvent_wordIA_any_state p n s⟩
  rw [wordIA_eq]
  exact decode_wordIA c p n

end Sys2Proof.Machine

/-! The decoder and the encoder (30_encoding.md R60 to R68, R76): the words of the table, what a decoded byte is, and the table's own reading. -/

namespace Sys2Proof.Machine

/-- Settles O4, row by row. -/
theorem decodeOfEncode : Obligations.DecodeOfEncode := by
  unfold Obligations.DecodeOfEncode
  intro c i
  cases i with
  | la n => exact Laws.RoundTrip.la n c
  | rdDummy x => exact Laws.RoundTrip.rdDummy x c
  | rdStart x => exact Laws.RoundTrip.rdStart x c
  | rdIgnS x => exact Laws.RoundTrip.rdIgnS x c
  | rdClk x => exact Laws.RoundTrip.rdClk x c
  | rdIgnC x => exact Laws.RoundTrip.rdIgnC x c
  | ia p n => exact Laws.RoundTrip.ia p n c
  | noedge x => exact Laws.RoundTrip.noedge x c

theorem decode_noedge (c : DecodeCtx) (x : Nibble) : decode c (0b0000#4 ++ x) = .ok (.noedge x) :=
  Laws.RoundTrip.noedge x c rfl

theorem decode_of_bit7 (c : DecodeCtx) {w : EventByte} (h : w.getLsbD 7 = true) : decode c w = .error .notSevenBits :=
  if_pos h

/-- `P` = 1 with `R` = 0 (R67). -/
theorem decode_of_polarity_alone (c : DecodeCtx) {w : EventByte} (h7 : w.getLsbD 7 = false) (hR : w.getLsbD 5 = false)
    (hP : w.getLsbD 4 = true) : decode c w = .error .polarityWithoutReadEdge := by
  unfold decode fieldsOf
  rw [h7, hR, hP]
  cases w.getLsbD 6 <;> rfl

/-- The bytes, by the fields of R60: no event word, malformed, or one of the four kinds of instant of R63 to R67. -/
inductive WordKind : EventByte → Prop where
  | notSevenBits {w : EventByte} (h7 : w.getLsbD 7 = true) : WordKind w
  | polarityAlone {w : EventByte} (h7 : w.getLsbD 7 = false) (hR : w.getLsbD 5 = false) (hP : w.getLsbD 4 = true) : WordKind w
  | load (n : Nibble) : WordKind (wordLA n)
  | read (p : Bool) (x : Nibble) : WordKind (0b001#3 ++ BitVec.ofBool p ++ x)
  | both (p : Bool) (n : Nibble) : WordKind (wordIA p n)
  | none (x : Nibble) : WordKind (0b0000#4 ++ x)

theorem wordKind (w : EventByte) : WordKind w := by
  have hopcode : w.getLsbD 7 = true ∨ (w.getLsbD 7 = false ∧ w.getLsbD 5 = false ∧ w.getLsbD 4 = true) ∨
      w.extractLsb' 4 4 = 0b0100#4 ∨ w.extractLsb' 4 4 = 0b0010#4 ∨ w.extractLsb' 4 4 = 0b0011#4 ∨
      w.extractLsb' 4 4 = 0b0110#4 ∨ w.extractLsb' 4 4 = 0b0111#4 ∨ w.extractLsb' 4 4 = 0b0000#4 := by
    revert w
    decide
  have hw := eq_append_nibbles w
  obtain h7 | ⟨h7, hR, hP⟩ | ho | ho | ho | ho | ho | ho := hopcode
  · exact .notSevenBits h7
  · exact .polarityAlone h7 hR hP
  all_goals rw [ho] at hw; rw [hw]
  · exact .load _
  · exact .read false _
  · exact .read true _
  · exact .both false _
  · exact .both true _
  · exact .none _

/-- A byte that decodes is a word of R63 to R67, and decodes as that rule says. -/
theorem decode_cases {c : DecodeCtx} {w : EventByte} {i : Instr} (h : decode c w = .ok i) :
    (∃ n, w = wordLA n ∧ i = .la n) ∨
      (∃ (p : Bool) (x : Nibble), w = 0b001#3 ++ BitVec.ofBool p ++ x ∧ i = decodeReadEdge c p x) ∨
      (∃ p n, w = wordIA p n ∧ i = .ia p n) ∨ ∃ x : Nibble, w = 0b0000#4 ++ x ∧ i = .noedge x := by
  cases wordKind w with
  | notSevenBits h7 => rw [decode_of_bit7 c h7] at h; cases h
  | polarityAlone h7 hR hP => rw [decode_of_polarity_alone c h7 hR hP] at h; cases h
  | load n => rw [decode_wordLA] at h; cases h; exact .inl ⟨n, rfl, rfl⟩
  | read p x => rw [decode_readEdge] at h; cases h; exact .inr (.inl ⟨p, x, rfl, rfl⟩)
  | both p n => rw [decode_wordIA] at h; cases h; exact .inr (.inr (.inl ⟨p, n, rfl, rfl⟩))
  | none x => rw [decode_noedge] at h; cases h; exact .inr (.inr (.inr ⟨x, rfl, rfl⟩))

/-- The combinations of R31 and R32: no session and armed for start, or a session with its address and armed for clock. -/
theorem coherent_cases {c : DecodeCtx} (h : c.coherent = true) :
    (∃ v, c = ⟨.awaitingStart, false, v⟩) ∨ c = ⟨.awaitingClock, true, true⟩ := by
  obtain ⟨sel, a, v⟩ := c
  revert h
  cases sel <;> cases a <;> cases v <;> simp [DecodeCtx.coherent]

/-- In the combinations that a state can have, a READ edge decodes to a row with its own word that the bits select. -/
theorem encode_decodeReadEdge {c : DecodeCtx} (hc : c.coherent = true) (p : Bool) (x : Nibble) :
    encode (decodeReadEdge c p x) = 0b001#3 ++ BitVec.ofBool p ++ x ∧ (decodeReadEdge c p x).selectedIn c = true := by
  obtain ⟨v, rfl⟩ | rfl := coherent_cases hc
  · cases p <;> cases v <;> exact ⟨rfl, rfl⟩
  · cases p <;> exact ⟨rfl, rfl⟩

theorem encode_ia (p : Bool) (n : Nibble) : encode (.ia p n) = wordIA p n := by
  cases p <;> rfl

/-- Settles O5, by the kind of the decoded word. -/
theorem encodeOfDecode : Obligations.EncodeOfDecode := by
  unfold Obligations.EncodeOfDecode
  intro c w i hc h
  obtain ⟨n, rfl, rfl⟩ | ⟨p, x, rfl, rfl⟩ | ⟨p, n, rfl, rfl⟩ | ⟨x, rfl, rfl⟩ := decode_cases h
  · exact ⟨rfl, rfl⟩
  · exact encode_decodeReadEdge hc p x
  · exact ⟨encode_ia p n, rfl⟩
  · exact ⟨rfl, rfl⟩

/-- Bits 3:0 of the word of a command are its operand. -/
theorem nibbleOf_eq (i : Instr) : nibbleOf i = (encode i).extractLsb' 0 4 := by
  unfold encode
  generalize opcodeOf i = o
  generalize nibbleOf i = n
  revert o n
  decide

/-- A command's word has the `match` of its row under the row's `mask`; what the mask leaves free is `P` of IA, and the nibble. -/
theorem encode_matches_row (i : Instr) :
    encode i &&& tableMask i = tableMatch i ∧ ∀ p n, i = .ia p n → p = (encode i).getLsbD 4 := by
  cases i with
  | ia p n =>
    refine ⟨by revert p n; decide, fun q m h => ?_⟩
    cases h
    revert p n
    decide
  | la n => exact ⟨by revert n; decide, nofun⟩
  | rdDummy x | rdStart x | rdIgnS x | rdClk x | rdIgnC x | noedge x => exact ⟨by revert x; decide, nofun⟩

/-- All rows but IA fix bits 7:4 (spec/opcode_table.json). -/
theorem row_of_not_ia {i : Instr} (hi : ∀ p n, i ≠ .ia p n) : tableMask i = 0x70#8 ∧ tableMatch i = opcodeOf i ++ 0#4 := by
  cases i with
  | ia p n => exact absurd rfl (hi p n)
  | _ => simp [tableMask, tableMatch, opcodeOf]

theorem opcode_of_mask70 {w : EventByte} (h7 : w.getLsbD 7 = false) {o : BitVec 4} (h : w &&& 0x70#8 = o ++ 0#4) :
    w.extractLsb' 4 4 = o := by
  revert w o
  decide

theorem opcode_of_mask60 {w : EventByte} (h7 : w.getLsbD 7 = false) (h : w &&& 0x60#8 = 0x60#8) :
    w.extractLsb' 4 4 = if w.getLsbD 4 then 0b0111#4 else 0b0110#4 := by
  revert w
  decide

/-- The row's `mask` and `match`, and `P` of IA, give bits 7:4 of the command's word. -/
theorem opcode_of_row {w : EventByte} {i : Instr} (h7 : w.getLsbD 7 = false) (hrow : w &&& tableMask i = tableMatch i)
    (hP : ∀ p n, i = .ia p n → p = w.getLsbD 4) : w.extractLsb' 4 4 = opcodeOf i := by
  by_cases hia : ∃ p n, i = .ia p n
  · obtain ⟨p, n, rfl⟩ := hia
    rw [opcode_of_mask60 h7 hrow, ← hP p n rfl]
    rfl
  · obtain ⟨hmask, hmatch⟩ := row_of_not_ia fun p n hi => hia ⟨p, n, hi⟩
    rw [hmask, hmatch] at hrow
    exact opcode_of_mask70 h7 hrow

/-- Settles O6: `mask`, `match` and the free bits say that the word is the command's own, and the two round trips do the rest. -/
theorem decoderIsTheTables : Obligations.DecoderIsTheTables := by
  unfold Obligations.DecoderIsTheTables
  intro c w i hc h7
  constructor
  · intro h
    obtain ⟨rfl, hsel⟩ := encodeOfDecode c w i hc h
    obtain ⟨hrow, hP⟩ := encode_matches_row i
    exact ⟨hrow, hsel, nibbleOf_eq i, hP⟩
  · rintro ⟨hrow, hsel, hnibble, hP⟩
    have hw : encode i = w := by
      rw [encode, ← opcode_of_row h7 hrow hP, hnibble]
      exact (eq_append_nibbles w).symm
    rw [← hw]
    exact decodeOfEncode c i hsel

/-- Settles O7: each kind of byte is rejected or decodes. -/
theorem malformedWordsAreRejected : Obligations.MalformedWordsAreRejected := by
  unfold Obligations.MalformedWordsAreRejected
  refine fun c w => ⟨decode_of_bit7 c, decode_of_polarity_alone c, fun h7 hRP => ?_⟩
  cases wordKind w with
  | notSevenBits h7' => rw [h7] at h7'; cases h7'
  | polarityAlone _ hR hP => rw [hR, hP] at hRP; simp at hRP
  | load n => exact ⟨_, decode_wordLA c n⟩
  | read p x => exact ⟨_, decode_readEdge c p x⟩
  | both p n => exact ⟨_, decode_wordIA c p n⟩
  | none x => exact ⟨_, decode_noedge c x⟩

/-- Settles O3: closed words, evaluated by the decoder. -/
theorem tableWordsDecode : Obligations.TableWordsDecode := by
  unfold Obligations.TableWordsDecode
  decide

/-- Settles O34: the row's round trip, and NOEDGE answers its state. -/
theorem noEdgeChangesNothing : Obligations.NoEdgeChangesNothing := by
  unfold Obligations.NoEdgeChangesNothing
  exact fun x s => ⟨fun c => decode_noedge c x, rfl⟩

end Sys2Proof.Machine

/-! The wires (20_memory.md R46; 30_encoding.md R60, R62; 40_command_decoder.md R80, R81): the weights of AD[3:0], and the edges of an
instant as an event word. -/

namespace Sys2Proof.Machine

theorem toNat_nibbleOfLevels (b3 b2 b1 b0 : Bool) :
    (nibbleOfLevels b3 b2 b1 b0).toNat = b0.toNat * 1 + b1.toNat * 2 + b2.toNat * 4 + b3.toNat * 8 := by
  revert b3 b2 b1 b0
  decide

theorem fieldsOf_wordLA (n : Nibble) : fieldsOf (wordLA n) = ⟨true, false, false, n⟩ := by
  revert n
  decide

/-- The word of an LA with the four levels written as its last bits. -/
theorem wordLA_nibbleOfLevels (b3 b2 b1 b0 : Bool) :
    0b0100#4 ++ BitVec.ofBool b3 ++ BitVec.ofBool b2 ++ BitVec.ofBool b1 ++ BitVec.ofBool b0 =
      wordLA (nibbleOfLevels b3 b2 b1 b0) := by
  revert b3 b2 b1 b0
  decide

/-- The word of an instant, by whether there is a LOAD trigger edge (R80), a READ edge, and one of the clock polarity (R62). -/
theorem eventWordOf_eq {c : Config} {e : Edges} {l r p : Bool} (hl : decide (e.load = some c.loadPol) = l)
    (hr : e.read.isSome = r) (hp : decide (e.read ≠ some c.readStartPol) = p) :
    eventWordOf c e =
      0#1 ++ BitVec.ofBool l ++ BitVec.ofBool r ++ BitVec.ofBool (r && p) ++ nibbleOfLevels e.b3 e.b2 e.b1 e.b0 := by
  subst hl hr hp
  rfl

section
variable (c : Config) (b3 b2 b1 b0 : Bool)

theorem eventWordOf_load : eventWordOf c ⟨some c.loadPol, none, b3, b2, b1, b0⟩ = wordLA (nibbleOfLevels b3 b2 b1 b0) :=
  eventWordOf_eq (l := true) (r := false) (p := true) (by simp) rfl (by simp)

theorem eventWordOf_both (q : Polarity) :
    eventWordOf c ⟨some c.loadPol, some q, b3, b2, b1, b0⟩ =
      encode (.ia (decide (q ≠ c.readStartPol)) (nibbleOfLevels b3 b2 b1 b0)) := by
  rw [encode_ia]
  by_cases hq : q = c.readStartPol
  · rw [eventWordOf_eq (l := true) (r := true) (p := false) (by simp) rfl (by simp [hq]), decide_eq_false (by simp [hq])]
    rfl
  · rw [eventWordOf_eq (l := true) (r := true) (p := true) (by simp) rfl (by simp [hq]), decide_eq_true hq]
    rfl

variable {load : Option Polarity} (hload : load ≠ some c.loadPol)
include hload

/-- Without a LOAD trigger edge the READ edge alone makes the word. -/
theorem eventWordOf_start :
    eventWordOf c ⟨load, some c.readStartPol, b3, b2, b1, b0⟩ = encode (.rdStart (nibbleOfLevels b3 b2 b1 b0)) :=
  eventWordOf_eq (l := false) (r := true) (p := false) (by simp [hload]) rfl (by simp)

theorem eventWordOf_clock {q : Polarity} (hq : q ≠ c.readStartPol) :
    eventWordOf c ⟨load, some q, b3, b2, b1, b0⟩ = encode (.rdClk (nibbleOfLevels b3 b2 b1 b0)) :=
  eventWordOf_eq (l := false) (r := true) (p := true) (by simp [hload]) rfl (by simp [hq])

theorem eventWordOf_noedge : eventWordOf c ⟨load, none, b3, b2, b1, b0⟩ = encode (.noedge (nibbleOfLevels b3 b2 b1 b0)) :=
  eventWordOf_eq (l := false) (r := false) (p := true) (by simp [hload]) rfl (by simp)

end

/-- Settles O8: the word is that of LA with the nibble of the levels, whose number reaches the address unchanged. -/
theorem nibbleWeightsOfTheLines : Obligations.NibbleWeightsOfTheLines := by
  unfold Obligations.NibbleWeightsOfTheLines
  intro b3 b2 b1 b0
  dsimp only
  rw [wordLA_nibbleOfLevels, ← toNat_nibbleOfLevels]
  refine ⟨?_, fun c => ⟨_, decode_wordLA c _, rfl⟩, fun c => eventWordOf_load c b3 b2 b1 b0, fun s hclear hindex => ?_⟩
  · rw [fieldsOf_wordLA]
  · obtain ⟨-, haddress⟩ := afterLa_first (nibbleOfLevels b3 b2 b1 b0) hindex
    refine ⟨_, (applyEvent_wordLA hclear _).trans (exec_la _ s), ?_⟩
    rw [haddress, BitVec.toNat_setWidth_of_le (by decide)]

/-- Settles O9: a LOAD trigger edge alone, with a READ edge, and the words of a READ edge without one. -/
theorem edgesBecomeEventWords : Obligations.EdgesBecomeEventWords := by
  unfold Obligations.EdgesBecomeEventWords
  intro c b3 b2 b1 b0 p q
  have hother (hp : p ≠ c.loadPol) : some p ≠ some c.loadPol := fun h => hp (Option.some.inj h)
  have hnone : none ≠ some c.loadPol := nofun
  exact ⟨eventWordOf_load c b3 b2 b1 b0, fun hp => eventWordOf_noedge c b3 b2 b1 b0 (hother hp),
    eventWordOf_start c b3 b2 b1 b0 hnone, eventWordOf_clock c b3 b2 b1 b0 hnone, eventWordOf_both c b3 b2 b1 b0 q,
    fun hp => eventWordOf_start c b3 b2 b1 b0 (hother hp), fun hp => eventWordOf_clock c b3 b2 b1 b0 (hother hp),
    eventWordOf_noedge c b3 b2 b1 b0 hnone⟩

end Sys2Proof.Machine

/-! One input (40_command_decoder.md R83 to R87, R140): what a command leaves alone, that an atomic event is a capture and a dispatch, and that
an input of a host that keeps its rules is answered. -/

namespace Sys2Proof.Machine

/-! What no command writes -/

theorem config_of_exec {i : Instr} {s t : State} (h : exec i s = .next t) : t.config = s.config := by
  cases i with
  | la n => rw [exec_la_eq] at h; cases h; exact accumulate_config n _
  | rdStart x => rw [exec_rdStart_eq] at h; cases h; rfl
  | rdClk x => rw [exec_rdClk] at h; cases h; exact afterClk_config s
  | ia p n => cases h
  | rdDummy x | rdIgnS x | rdIgnC x | noedge x => cases h; rfl

theorem loadPending_of_exec {i : Instr} {s t : State} (h : exec i s = .next t) : t.loadPending = s.loadPending := by
  cases i with
  | la n => rw [exec_la_eq] at h; cases h; exact accumulate_loadPending n _
  | rdStart x => rw [exec_rdStart_eq] at h; cases h; rfl
  | rdClk x => rw [exec_rdClk] at h; cases h; exact afterClk_loadPending s
  | ia p n => cases h
  | rdDummy x | rdIgnS x | rdIgnC x | noedge x => cases h; rfl

/-- The model's own fields (log 7, log 15). -/
theorem inputs_draws_of_exec {i : Instr} {s t : State} (h : exec i s = .next t) : t.inputs = s.inputs ∧ t.draws = s.draws := by
  cases i with
  | la n => rw [exec_la_eq] at h; cases h; exact ⟨accumulate_inputs n _, accumulate_draws n _⟩
  | rdStart x => rw [exec_rdStart_eq] at h; cases h; exact ⟨rfl, rfl⟩
  | rdClk x => rw [exec_rdClk_eq] at h; cases h; exact ⟨advanceCursor_inputs _, advanceCursor_draws _⟩
  | ia p n => cases h
  | rdDummy x | rdIgnS x | rdIgnC x | noedge x => cases h; exact ⟨rfl, rfl⟩

/-- Settles O37: what no command writes, one element at a time. -/
theorem commandsLeaveInterfaceAlone : Obligations.CommandsLeaveInterfaceAlone := by
  unfold Obligations.CommandsLeaveInterfaceAlone
  intro i s t h
  obtain ⟨hinputs, hdraws⟩ := inputs_draws_of_exec h
  exact ⟨config_of_exec h, hinputs, hdraws, loadPending_of_exec h, fun hi => readPending_of_exec hi h⟩

theorem readBranch_ne_la (c : DecodeCtx) (x n : Nibble) : readBranch c x ≠ .la n := by
  obtain h | h | h := readBranch_cases c x <;> rw [h] <;> nofun

/-- The Read-Data Handler leaves both latches alone. -/
theorem latches_of_readBranch {c : DecodeCtx} {x : Nibble} {s t : State} (h : exec (readBranch c x) s = .next t) :
    t.loadPending = s.loadPending ∧ t.readPending = s.readPending :=
  ⟨loadPending_of_exec h, readPending_of_exec (readBranch_ne_la c x) h⟩

/-! Answers -/

theorem exec_readBranch_answers (c : DecodeCtx) (x : Nibble) (s : State) : ∃ t, exec (readBranch c x) s = .next t := by
  obtain h | h | h := readBranch_cases c x <;> rw [h]
  · exact ⟨_, rfl⟩
  · exact ⟨_, exec_rdStart_eq x s⟩
  · exact ⟨_, exec_rdClk x s⟩

/-- Settles O16: such an input resets, runs LA or the handler's branch, or changes nothing. -/
theorem hostRulesNeverStop : Obligations.HostRulesNeverStop := by
  unfold Obligations.HostRulesNeverStop
  intro s i hclear hi
  obtain ⟨w, rfl⟩ | ⟨n, hla⟩ | hsame | ⟨x, hread⟩ := applyInput_of_hostRules hclear hi
  · exact ⟨resetDevice s, rfl, resetDevice_loadPending s, resetDevice_readPending s⟩
  · exact ⟨afterLa n s, hla.trans (exec_la n s), latchesClear_afterLa n hclear⟩
  · exact ⟨s, hsame, hclear⟩
  · obtain ⟨t, ht⟩ := exec_readBranch_answers (decodeCtx s) x s
    obtain ⟨hload, hreadLatch⟩ := latches_of_readBranch ht
    exact ⟨t, hread.trans ht, hload.trans hclear.1, hreadLatch.trans hclear.2⟩

/-! Dispatch -/

section
variable {s : State} (ad : Nibble)

theorem dispatch_of_clear (h : LatchesClear s) : dispatch ad s = .next s := by
  unfold dispatch
  rw [h.1, h.2]

theorem dispatch_of_load (hload : s.loadPending = true) (hread : s.readPending = false) :
    dispatch ad s = dispatchLoad ad s := by
  unfold dispatch
  rw [hload, hread]

theorem dispatch_of_read (hload : s.loadPending = false) (hread : s.readPending = true) :
    dispatch ad s = dispatchRead ad s := by
  unfold dispatch
  rw [hload, hread]

/-- With both latches set a free value decides (R85, D10; log 14). -/
theorem dispatch_of_both (hload : s.loadPending = true) (hread : s.readPending = true) :
    dispatch ad s =
      if Config.loadGoesFirst s.config.bankId s.draws then dispatchLoad ad (countDraw s)
      else dispatchRead ad (countDraw s) := by
  unfold dispatch
  rw [hload, hread]

end

/-- Settles O15: one latch set, the other one, both; LA clears the READ latch, the Read-Data Handler keeps the LOAD latch. -/
theorem dispatchOfPendingEvents : Obligations.DispatchOfPendingEvents := by
  unfold Obligations.DispatchOfPendingEvents
  refine fun s ad => ⟨dispatch_of_load ad, dispatch_of_read ad, fun hload hread => ?_⟩
  rw [dispatch_of_both ad hload hread]
  split
  · refine .inl ⟨rfl, fun t ht => ⟨?_, loadPending_of_exec ht⟩⟩
    rw [dispatchLoad, exec_la] at ht
    cases ht
    exact accumulate_readPending ad _
  · refine .inr ⟨rfl, fun t ht => ?_⟩
    obtain ⟨hkept, hcleared⟩ := latches_of_readBranch ht
    exact ⟨hcleared, hkept.trans hload⟩

/-! An atomic event -/

theorem ReadRow.nibbleOf {row : Nibble → Instr} (h : ReadRow row) (x : Nibble) : nibbleOf (row x) = x := by
  cases h <;> rfl

/-- The operand of a decoded command is the nibble of the byte, in every combination of the state bits. -/
theorem nibbleOf_of_decode {c : DecodeCtx} {w : EventByte} {i : Instr} (h : decode c w = .ok i) :
    nibbleOf i = w.extractLsb' 0 4 := by
  have hnibble (o : BitVec 4) (x : Nibble) : (o ++ x).extractLsb' 0 4 = x := BitVec.extractLsb'_append_eq_right
  obtain ⟨n, rfl, rfl⟩ | ⟨p, x, rfl, rfl⟩ | ⟨p, n, rfl, rfl⟩ | ⟨x, rfl, rfl⟩ := decode_cases h
  · exact (hnibble _ n).symm
  · exact ((ReadRow.of_decodeReadEdge c p).nibbleOf x).trans (hnibble _ x).symm
  · exact (hnibble _ n).symm
  · exact (hnibble _ x).symm

/-- With no event pending before it, an edge whose handler is dispatched at once runs the command it decodes to (R83, R84). -/
theorem capture_then_dispatch_of_clear {s : State} {w : EventByte} {i : Instr} (hclear : LatchesClear s)
    (h : decode (decodeCtx s) w = .ok i) :
    (∃ t, captureEdges i s = .next t ∧ dispatch (nibbleOf i) t = exec i s) ∨
      (captureEdges i s = .refused .indirectAddress ∧ exec i s = .refused .indirectAddress) := by
  have hload : clearLoadPending (latchLoad s) = s := by
    unfold clearLoadPending latchLoad
    rw [← hclear.1]
  have hread : clearReadPending (latchRead s) = s := by
    unfold clearReadPending latchRead
    rw [← hclear.2]
  obtain ⟨n, -, rfl⟩ | ⟨p, x, -, rfl⟩ | ⟨p, n, -, rfl⟩ | ⟨x, -, rfl⟩ := decode_cases h
  · refine .inl ⟨latchLoad s, rfl, ?_⟩
    rw [dispatch_of_load _ (s := latchLoad s) rfl hclear.2, dispatchLoad, hload]
    rfl
  · refine .inl ⟨_, captureEdges_decodeReadEdge _ p x s, ?_⟩
    rw [(ReadRow.of_decodeReadEdge _ p).nibbleOf x, exec_decodeReadEdge]
    split
    · change dispatch x (latchRead s) = _
      rw [dispatch_of_read _ (s := latchRead s) hclear.1 rfl, dispatchRead, hread]
      rfl
    · exact dispatch_of_clear x hclear
  · exact .inr ⟨captureEdges_ia p n s, exec_ia p n s⟩
  · exact .inl ⟨s, rfl, dispatch_of_clear x hclear⟩

/-- Settles O13: with an event pending by the definition, else by the kind of the edge. -/
theorem atomicEventIsCaptureThenDispatch : Obligations.AtomicEventIsCaptureThenDispatch := by
  unfold Obligations.AtomicEventIsCaptureThenDispatch
  intro s w
  unfold captureWord applyEvent
  cases hd : decode (decodeCtx s) w with
  | error e => rfl
  | ok i =>
    dsimp only
    rw [← nibbleOf_of_decode hd]
    split
    case isTrue => cases captureEdges i s <;> rfl
    case isFalse hpending =>
      have hclear : LatchesClear s := by simpa [somethingPending] using hpending
      obtain ⟨t, hcapture, hdispatch⟩ | ⟨hcapture, hexec⟩ := capture_then_dispatch_of_clear hclear hd
      · rw [hcapture]
        exact hdispatch.symm
      · rw [hcapture]
        exact hexec

/-! The oldest input -/

theorem step_of_input {s : State} {i : Input} {rest : List Input} (h : s.inputs = i :: rest) :
    step s = applyInput i (takeInput rest s) := by
  unfold step runStep
  rw [h]

theorem step_of_no_input {s : State} (h : s.inputs = []) : step s = .next s := by
  unfold step runStep
  rw [h]

/-- A malformed word is refused whether an event is pending or not (R67). -/
theorem applyEvent_of_error {s : State} {w : EventByte} {e : DecodeError} (h : decode (decodeCtx s) w = .error e) :
    applyEvent w s = .refused (.badEventWord e) := by
  unfold applyEvent
  rw [h]

theorem applyEvent_of_decode {s : State} {w : EventByte} {i : Instr} (hclear : LatchesClear s)
    (h : decode (decodeCtx s) w = .ok i) : applyEvent w s = exec i s := by
  rw [applyEvent_of_clear hclear, h]

/-- Settles O57: the step takes the oldest input, and each kind has its own arm. -/
theorem inputsTakeEffectByKind : Obligations.InputsTakeEffectByKind := by
  unfold Obligations.InputsTakeEffectByKind
  exact ⟨fun s i rest h => step_of_input h, fun s => ⟨fun w => rfl, fun e => rfl, fun w => rfl, fun ad => rfl⟩⟩

/-- Settles O10: the oldest input is the word, and with no event pending it runs its command. -/
theorem stepRunsDecodedCommand : Obligations.StepRunsDecodedCommand := by
  unfold Obligations.StepRunsDecodedCommand
  intro s w rest i hinputs hclear hdecode
  have hword : applyEvent w (takeInput rest s) = exec i (takeInput rest s) := applyEvent_of_decode hclear hdecode
  exact (step_of_input hinputs).trans hword

/-- Settles O11: no input, and a word that does not decode. -/
theorem stepWithoutCommand : Obligations.StepWithoutCommand := by
  unfold Obligations.StepWithoutCommand
  refine fun s => ⟨step_of_no_input, fun w rest e hinputs herror => ?_⟩
  have hword : applyEvent w (takeInput rest s) = .refused (.badEventWord e) := applyEvent_of_error herror
  exact (step_of_input hinputs).trans hword

/-- Settles O1: every element of the reset state as it is written. -/
theorem resetStateHoldsSpecValues : Obligations.ResetStateHoldsSpecValues := by
  unfold Obligations.ResetStateHoldsSpecValues
  decide

/-- Settles O2: `RESET` gives `resetDevice`, whose level is the free value. -/
theorem resetInputGivesResetState : Obligations.ResetInputGivesResetState := by
  unfold Obligations.ResetInputGivesResetState
  exact fun s w => ⟨Config.freeLineLevel s.config.bankId s.draws, rfl⟩

end Sys2Proof.Machine

/-! Invariants, once for every predicate (10_state.md section 6). By `AtomicEventIsCaptureThenDispatch` an input does no more than latch edges,
run one of the two handlers of R84, or reset; so what these keep, every step keeps. -/

namespace Sys2Proof.Machine

/-- The event sources, `RESET`, the Address-Load Handler and the Read-Data Handler with its branch of R87 keep `P`. -/
structure Kept (P : State → Prop) : Prop where
  interfaceOp : ∀ {s f}, InterfaceOp f → P s → P (f s)
  reset : ∀ {s}, P s → P (resetDevice s)
  loadHandler : ∀ {s} (n : Nibble), P s → P (afterLa n s)
  readHandler : ∀ {s t} (x : Nibble), P s → exec (readBranch (decodeCtx s) x) s = .next t → P t

section
variable {P : State → Prop} (hP : Kept P) {s t : State} (h : P s)
include hP h

theorem Kept.dispatchLoad {ad : Nibble} (ht : dispatchLoad ad s = .next t) : P t := by
  rw [Machine.dispatchLoad, exec_la] at ht
  cases ht
  exact hP.loadHandler ad (hP.interfaceOp .clearLoadPending h)

theorem Kept.dispatchRead {ad : Nibble} (ht : dispatchRead ad s = .next t) : P t :=
  hP.readHandler ad (hP.interfaceOp .clearReadPending h) ht

theorem Kept.dispatch {ad : Nibble} (ht : dispatch ad s = .next t) : P t := by
  have hcount := hP.interfaceOp .countDraw h
  obtain ⟨hnone, -⟩ | ⟨-, hload | hload⟩ | ⟨-, hread | hread⟩ := dispatch_cases ad s
  · rw [hnone] at ht
    cases ht
    exact h
  · exact hP.dispatchLoad h (hload.symm.trans ht)
  · exact hP.dispatchLoad hcount (hload.symm.trans ht)
  · exact hP.dispatchRead h (hread.symm.trans ht)
  · exact hP.dispatchRead hcount (hread.symm.trans ht)

theorem Kept.captureWord {w : EventByte} (ht : captureWord w s = .next t) : P t := by
  unfold Machine.captureWord at ht
  split at ht
  · cases ht
  · obtain rfl | rfl | rfl := captureEdges_cases ht
    · exact hP.interfaceOp .latchLoad h
    · exact hP.interfaceOp .latchRead h
    · exact h

theorem Kept.applyEvent {w : EventByte} (ht : applyEvent w s = .next t) : P t := by
  rw [atomicEventIsCaptureThenDispatch s w] at ht
  split at ht
  case h_1 u hu => exact hP.dispatch (hP.captureWord h hu) ht
  case h_2 => cases ht
  case h_3 => cases ht

theorem Kept.applyInput {i : Input} (ht : applyInput i s = .next t) : P t := by
  cases i with
  | event w => exact hP.applyEvent h ht
  | edges e => exact hP.applyEvent h ht
  | capture w => exact hP.captureWord h ht
  | dispatch ad => exact hP.dispatch h ht
  | reset w => cases ht; exact hP.reset h

theorem Kept.step (ht : step s = .next t) : P t := by
  cases hinputs : s.inputs with
  | nil =>
    rw [step_of_no_input hinputs] at ht
    cases ht
    exact h
  | cons i rest =>
    rw [step_of_input hinputs] at ht
    exact hP.applyInput (hP.interfaceOp (.takeInput rest) h) ht

end

theorem kept_config (c : Config) : Kept fun s => s.config = c where
  interfaceOp := by
    intro s f hf h
    cases hf <;> exact h
  reset h := h
  loadHandler n h := (accumulate_config n _).trans h
  readHandler _ h ht := (config_of_exec ht).trans h

/-- Settles O38: no handler and no event source writes the constants, and the ROM is one of them. -/
theorem constantsNeverChange : Obligations.ConstantsNeverChange := by
  unfold Obligations.ConstantsNeverChange
  intro s t ht
  have hconfig : t.config = s.config := (kept_config s.config).step rfl ht
  exact ⟨hconfig, fun o => by rw [hconfig]⟩

end Sys2Proof.Machine

/-! The invariants R30 to R36 (10_state.md section 6). -/

namespace Sys2Proof.Machine

/-- Outside a session R31, R34 and R36 say nothing, and R32 and R33 fix four elements. -/
theorem stateInv_of_no_session {t : State} (hactive : t.transferActive = false) (hsel : t.readEdgeSel = .awaitingStart)
    (hown : t.bankOwnsBus = false) (hline : t.lineDriven = false) (hvalid : ValidAtIndexZero t) (hbound : AddressBounded t)
    (hrom : t.config.rom.wf = true) : StateInv t := by
  have hnot : ¬t.transferActive = true := Bool.eq_false_iff.1 hactive
  refine ⟨hvalid, fun h => absurd h hnot, ⟨fun h => ?_, fun h => absurd h hnot⟩, ⟨fun h => ?_, fun h => ?_⟩,
    fun h => absurd h hnot, hbound, fun h => absurd h hnot, hrom⟩
  · rw [hsel] at h
    cases h
  · rw [hown] at h
    cases h
  · rw [hline] at h
    cases h

/-- A register that holds 0 at index 0 is bounded (R35). -/
theorem addressBounded_of_zero {t : State} (haddress : t.address = 0) (hindex : t.loadNibbleIndex = 0) : AddressBounded t := by
  intro _
  rw [haddress]
  exact ⟨by decide, fun h => absurd hindex h⟩

theorem stateInv_of_reset_values {t : State} (haddress : t.address = 0) (hindex : t.loadNibbleIndex = 0)
    (hactive : t.transferActive = false) (hsel : t.readEdgeSel = .awaitingStart)
    (hown : t.bankOwnsBus = false) (hline : t.lineDriven = false) (hrom : t.config.rom.wf = true) : StateInv t :=
  stateInv_of_no_session hactive hsel hown hline (fun _ => hindex) (addressBounded_of_zero haddress hindex) hrom

/-! LA -/

/-- A nibble put in above `k` nibbles gives a number of `k + 1` nibbles. -/
theorem toNat_insertNibble_lt {w k : Nat} {a : BitVec w} (ha : a.toNat < 2 ^ (4 * k)) (n : Nibble) :
    (insertNibble a n k).toNat < 2 ^ (4 * (k + 1)) := by
  have hdigit : (n.setWidth w <<< (4 * k)).toNat < 2 ^ (4 * (k + 1)) :=
    calc (n.setWidth w <<< (4 * k)).toNat
      _ = (n.toNat % 2 ^ w * 2 ^ (4 * k)) % 2 ^ w := by rw [BitVec.toNat_shiftLeft, BitVec.toNat_setWidth, Nat.shiftLeft_eq]
      _ ≤ n.toNat * 2 ^ (4 * k) := (Nat.mod_le _ _).trans (Nat.mul_le_mul_right _ (Nat.mod_le _ _))
      _ < 2 ^ 4 * 2 ^ (4 * k) := Nat.mul_lt_mul_of_pos_right n.isLt (Nat.two_pow_pos _)
      _ = 2 ^ (4 * (k + 1)) := by rw [← Nat.pow_add, Nat.mul_succ, Nat.add_comm]
  rw [insertNibble, BitVec.toNat_or]
  exact Nat.or_lt_two_pow (ha.trans (Nat.pow_lt_pow_right (by decide) (by omega))) hdigit

/-- While a load is in progress there is no session, so R35 bounds what its nibbles have made. -/
theorem toNat_accumulated_lt (n : Nibble) {s : State} (hinv : StateInv s) :
    (accumulated n s).toNat < 2 ^ (4 * (s.loadNibbleIndex.val + 1)) := by
  refine toNat_insertNibble_lt ?_ n
  split
  case isTrue => exact Nat.two_pow_pos _
  case isFalse hk =>
    obtain ⟨-, hactive⟩ := no_session_while_loading hinv hk
    obtain ⟨-, -, -, -, -, hbound, -⟩ := hinv
    exact (hbound hactive).2 hk

theorem addressBounded_afterLa (n : Nibble) {s : State} (hinv : StateInv s) : AddressBounded (afterLa n s) := by
  intro _
  by_cases hk : s.loadNibbleIndex = 4
  · rw [afterLa_last n hk]
    refine ⟨?_, fun h => absurd rfl h⟩
    rw [toNat_maskTo18]
    exact Nat.mod_lt _ (Nat.two_pow_pos 18)
  · have hlt := toNat_accumulated_lt n hinv
    have hnext : (s.loadNibbleIndex + 1).val = s.loadNibbleIndex.val + 1 := by omega
    rw [afterLa_partial n hk]
    refine ⟨hlt.trans_le (Nat.pow_le_pow_right (by decide) (by omega)), fun _ => ?_⟩
    rw [hnext]
    exact hlt

theorem stateInv_afterLa (n : Nibble) {s : State} (hinv : StateInv s) : StateInv (afterLa n s) := by
  have hvalid : ValidAtIndexZero (afterLa n s) := by
    intro h
    by_cases hk : s.loadNibbleIndex = 4
    · rw [afterLa_last n hk]
    · rw [afterLa_partial n hk] at h
      cases h
  refine stateInv_of_no_session (afterLa_transferActive n s) (afterLa_readEdgeSel n s) (afterLa_bankOwnsBus n s)
    (afterLa_lineDriven n s) hvalid (addressBounded_afterLa n hinv) ?_
  obtain ⟨-, -, -, -, -, -, -, hrom⟩ := hinv
  rw [afterLa, accumulate_config]
  exact hrom

/-! The Read-Data Handler -/

@[simp] theorem afterClk_addressValid (s : State) : (afterClk s).addressValid = s.addressValid := by simp [afterClk]
@[simp] theorem afterClk_loadNibbleIndex (s : State) : (afterClk s).loadNibbleIndex = s.loadNibbleIndex := by simp [afterClk]

theorem stateInv_afterClk {s : State} (hinv : StateInv s) (hactive : s.transferActive = true) : StateInv (afterClk s) := by
  obtain ⟨hvalid, hsession, harmed, -, htracks, -, -, hrom⟩ := hinv
  have hafter : (afterClk s).transferActive = true := (afterClk_transferActive s).trans hactive
  have hline : LineFollowsInsideByte (afterClk s) := by
    intro _ hk
    have hinside : s.bitCursor ≠ 7 := fun h7 => hk (by rw [afterClk_bitCursor, h7]; rfl)
    rw [afterClk_lineDriven, afterClk_bankOwnsBus_inside hinside]
  refine ⟨?_, ?_, ?_, ⟨fun _ => hafter, fun _ => hafter⟩, ownershipTracksAddress_afterClk htracks, fun h => ?_, hline, ?_⟩
  · simpa [ValidAtIndexZero] using hvalid
  · simpa [SessionHasAddress] using hsession
  · simpa [ClockArmedExactlyInSession] using harmed
  · rw [hafter] at h
    cases h
  · rwa [afterClk_config]

/-- The start pulse of an armed device: `Fetch()` gives what R34 asks, at bit 0. -/
theorem stateInv_of_rdStart {s t : State} {x : Nibble} (hinv : StateInv s) (haddress : s.addressValid = true)
    (ht : exec (.rdStart x) s = .next t) : StateInv t := by
  obtain ⟨hvalid, -, -, -, -, -, -, hrom⟩ := hinv
  rw [exec_rdStart_eq] at ht
  cases ht
  exact ⟨hvalid, fun _ => haddress, ⟨fun _ => rfl, fun _ => rfl⟩, ⟨fun _ => rfl, fun _ => rfl⟩, fun _ => ⟨rfl, rfl⟩, nofun,
    fun _ hk => absurd rfl hk, hrom⟩

/-- The dummy pulse outside a session. -/
theorem stateInv_of_rdDummy {s t : State} {x : Nibble} (hinv : StateInv s) (hactive : s.transferActive = false)
    (ht : exec (.rdDummy x) s = .next t) : StateInv t := by
  obtain ⟨-, hsession, harmed, hreleased, -, -, hline, hrom⟩ := hinv
  have hnot : ¬s.transferActive = true := Bool.eq_false_iff.1 hactive
  cases ht
  exact ⟨fun _ => rfl, hsession, harmed, hreleased, fun h => absurd h hnot, addressBounded_of_zero rfl rfl, hline, hrom⟩

theorem stateInv_of_readBranch {s t : State} {x : Nibble} (hinv : StateInv s)
    (ht : exec (readBranch (decodeCtx s) x) s = .next t) : StateInv t := by
  rw [exec_readBranch] at ht
  cases hactive : s.transferActive with
  | true =>
    rw [hactive] at ht
    cases ht
    exact stateInv_afterClk hinv hactive
  | false =>
    rw [if_pos hactive] at ht
    split at ht
    case isTrue => exact stateInv_of_rdDummy hinv hactive ht
    case isFalse haddress => exact stateInv_of_rdStart hinv (eq_true_of_ne_false haddress) ht

theorem kept_stateInv : Kept StateInv where
  interfaceOp := by
    intro s f hf h
    cases hf <;> exact h
  reset := by
    rintro s ⟨-, -, -, -, -, -, -, hrom⟩
    exact stateInv_of_reset_values rfl rfl rfl rfl rfl rfl hrom
  loadHandler n h := stateInv_afterLa n h
  readHandler _ h ht := stateInv_of_readBranch h ht

/-- Settles O51: both handlers, `RESET` and the event sources keep the invariants. -/
theorem everyStepKeepsTheInvariant : Obligations.EveryStepKeepsTheInvariant := by
  unfold Obligations.EveryStepKeepsTheInvariant
  exact fun s t hinv ht => kept_stateInv.step hinv ht

/-- Settles O50: the reset values meet the invariants, the empty ROM its canonical form. -/
theorem invariantAtReset : Obligations.InvariantAtReset := by
  unfold Obligations.InvariantAtReset
  exact ⟨stateInv_of_reset_values rfl rfl rfl rfl rfl rfl rfl, rfl, rfl⟩

end Sys2Proof.Machine

/-! The low 18 bits of an address (10_state.md R11, R13): each operation on addresses gives them as a function of the low 18 bits, whatever the
width of the register. -/

namespace Sys2Proof.Machine

/-- Bits 17:0 of an address. -/
def low18 {w : Nat} (a : BitVec w) : BitVec 18 := a.extractLsb' 0 18

theorem toNat_low18 {w : Nat} (a : BitVec w) : (low18 a).toNat = a.toNat % 2 ^ 18 := by
  simp [low18]

section
variable {w : Nat} (a : BitVec w)

theorem bankOf_eq_low18 : bankOf a = bankOf (low18 a) := by
  ext i hi
  simp [bankOf, low18]

theorem offsetOf_eq_low18 : offsetOf a = offsetOf (low18 a) := by
  ext i hi
  simp [offsetOf, low18]

theorem low18_insertNibble (n : Nibble) (k : Nat) (hw : 18 ≤ w) : low18 (insertNibble a n k) = insertNibble (low18 a) n k := by
  ext i hi
  have hiw : i < w := by omega
  simp [insertNibble, low18, hiw]

theorem low18_nextAddress (hw : 18 ≤ w) : low18 (nextAddress a) = nextAddress (low18 a) := by
  have hdvd : 2 ^ 18 ∣ 2 ^ w := Nat.pow_dvd_pow 2 hw
  apply BitVec.eq_of_toNat_eq
  rw [toNat_low18, nextAddress, nextAddress, BitVec.toNat_add, BitVec.toNat_add, BitVec.toNat_ofNat, toNat_low18,
    Nat.mod_mod_of_dvd _ hdvd, Nat.add_mod, Nat.mod_mod_of_dvd _ hdvd]
  simp

theorem toNat_maskTo18_eq_low18 (hw : 18 ≤ w) : (maskTo18 a).toNat = (low18 a).toNat := by
  have hmask : 0x3FFFF % 2 ^ w = 2 ^ 18 - 1 :=
    Nat.mod_eq_of_lt (lt_of_lt_of_le (by decide) (Nat.pow_le_pow_right (by decide) hw))
  rw [maskTo18, BitVec.toNat_and, BitVec.toNat_ofNat, hmask, Nat.and_two_pow_sub_one_eq_mod, toNat_low18]

theorem low18_maskTo18 (hw : 18 ≤ w) : low18 (maskTo18 a) = low18 a := by
  apply BitVec.eq_of_toNat_eq
  rw [toNat_low18, toNat_maskTo18_eq_low18 a hw]
  exact Nat.mod_eq_of_lt (low18 a).isLt

end

/-- Settles O49: each side is one function of the low 18 bits. -/
theorem addressWidthDoesNotMatter : Obligations.AddressWidthDoesNotMatter := by
  unfold Obligations.AddressWidthDoesNotMatter
  intro w v a b n k hw hv hlow
  change low18 a = low18 b at hlow
  have hw' : 18 ≤ w := by omega
  have hv' : 18 ≤ v := by omega
  have hbank : bankOf a = bankOf b := by rw [bankOf_eq_low18, hlow, ← bankOf_eq_low18]
  have hoffset : offsetOf a = offsetOf b := by rw [offsetOf_eq_low18, hlow, ← offsetOf_eq_low18]
  have hnext : low18 (nextAddress a) = low18 (nextAddress b) := by
    rw [low18_nextAddress a hw', hlow, low18_nextAddress b hv']
  have hinsert : low18 (insertNibble a n k.val) = low18 (insertNibble b n k.val) := by
    rw [low18_insertNibble a n k.val hw', hlow, low18_insertNibble b n k.val hv']
  have hmask : low18 (maskTo18 a) = low18 (maskTo18 b) := by rw [low18_maskTo18 a hw', hlow, low18_maskTo18 b hv']
  have hvalue : (maskTo18 a).toNat = (maskTo18 b).toNat := by
    rw [toNat_maskTo18_eq_low18 a hw', hlow, toNat_maskTo18_eq_low18 b hv']
  exact ⟨hbank, hoffset, hnext, hinsert, hmask, hvalue⟩

end Sys2Proof.Machine

/-! Bits 18 and above of `address` (10_state.md R13), as far as `TOP_WRAP` leaves them unseen. -/

namespace Sys2Proof.Machine

/-- Addresses that a device with the constants `c` does not tell apart: with `TOP_WRAP` = `silent` the whole register is seen (U3). -/
structure SameSeenAddress (c : Config) (a b : BitVec addrW) : Prop where
  low : low18 b = low18 a
  whole : c.topWrap = .silent → b = a

theorem SameSeenAddress.refl (c : Config) (a : BitVec addrW) : SameSeenAddress c a a := ⟨rfl, fun _ => rfl⟩

section
variable {c : Config} {a b : BitVec addrW} (h : SameSeenAddress c a b)
include h

theorem SameSeenAddress.bankOf : bankOf b = bankOf a := by rw [bankOf_eq_low18, h.low, ← bankOf_eq_low18]

theorem SameSeenAddress.offsetOf : offsetOf b = offsetOf a := by rw [offsetOf_eq_low18, h.low, ← offsetOf_eq_low18]

theorem SameSeenAddress.ownsAddress : ownsAddress c b = ownsAddress c a := by
  cases htop : c.topWrap with
  | slice =>
    rw [Bool.eq_iff_iff, ownsAddress_iff_of_slice htop, ownsAddress_iff_of_slice htop, h.bankOf]
  | silent => rw [h.whole htop]

theorem SameSeenAddress.nextAddress : SameSeenAddress c (nextAddress a) (nextAddress b) where
  low := by rw [low18_nextAddress b (by decide), h.low, low18_nextAddress a (by decide)]
  whole htop := by rw [h.whole htop]

theorem SameSeenAddress.insertNibble (n : Nibble) (k : Nat) : SameSeenAddress c (insertNibble a n k) (insertNibble b n k) where
  low := by rw [low18_insertNibble b n k (by decide), h.low, low18_insertNibble a n k (by decide)]
  whole htop := by rw [h.whole htop]

/-- The mask of R95 step 7 leaves no difference. -/
theorem SameSeenAddress.maskTo18 : maskTo18 b = maskTo18 a := by
  apply BitVec.eq_of_toNat_eq
  rw [toNat_maskTo18_eq_low18 b (by decide), h.low, toNat_maskTo18_eq_low18 a (by decide)]

end

/-- States that differ in unseen bits of `address` alone. -/
def SameButHighAddress (s t : State) : Prop := ∃ a, t = { s with address := a } ∧ SameSeenAddress s.config s.address a

theorem sameSeenAddress_accumulated (n : Nibble) {s : State} {a : BitVec addrW} (h : SameSeenAddress s.config s.address a) :
    SameSeenAddress s.config (accumulated n s) (accumulated n { s with address := a }) := by
  refine SameSeenAddress.insertNibble ?_ n _
  by_cases hk : s.loadNibbleIndex = 0
  · simpa [hk] using SameSeenAddress.refl s.config 0
  · simpa [hk] using h

theorem SameButHighAddress.afterLa (n : Nibble) {s t : State} (h : SameButHighAddress s t) :
    SameButHighAddress (afterLa n s) (afterLa n t) := by
  obtain ⟨a, rfl, ha⟩ := h
  have hacc := sameSeenAddress_accumulated n ha
  by_cases hk : s.loadNibbleIndex = 4
  · rw [afterLa_last n hk, afterLa_last n (by exact hk), hacc.bankOf, hacc.maskTo18]
    exact ⟨_, rfl, .refl _ _⟩
  · rw [afterLa_partial n hk, afterLa_partial n (by exact hk)]
    exact ⟨_, rfl, hacc⟩

theorem SameButHighAddress.afterClk {s t : State} (h : SameButHighAddress s t) : SameButHighAddress (afterClk s) (afterClk t) := by
  obtain ⟨a, rfl, ha⟩ := h
  rw [afterClk_eq, afterClk_eq]
  by_cases hk : s.bitCursor = 7
  · rw [advanceCursor_last (by exact hk), advanceCursor_last (by exact hk), fetch_eq, fetch_eq]
    refine ⟨nextAddress a, ?_, ha.nextAddress⟩
    dsimp only
    rw [ha.nextAddress.ownsAddress, ha.nextAddress.offsetOf]
    rfl
  · rw [advanceCursor_inside (by exact hk), advanceCursor_inside (by exact hk)]
    exact ⟨a, rfl, ha⟩

theorem SameButHighAddress.exec (i : Instr) {s t : State} (h : SameButHighAddress s t) :
    Agree SameButHighAddress (exec i s) (exec i t) := by
  cases i with
  | la n => exact .next (h.afterLa n)
  | rdClk x => exact .next h.afterClk
  | rdStart x =>
    obtain ⟨a, rfl, ha⟩ := h
    rw [exec_rdStart_eq, exec_rdStart_eq, ha.ownsAddress, ha.offsetOf]
    exact .next ⟨a, rfl, ha⟩
  | rdDummy x =>
    obtain ⟨a, rfl, ha⟩ := h
    exact .next ⟨0, rfl, .refl _ _⟩
  | ia p n => exact .refused _
  | rdIgnS x | rdIgnC x | noedge x => exact .next h

theorem unseen_sameButHighAddress : Unseen SameButHighAddress where
  refl s := ⟨s.address, rfl, .refl _ _⟩
  control := by
    rintro s t ⟨a, rfl, -⟩
    exact ⟨rfl, rfl, rfl, rfl, rfl, rfl⟩
  interfaceOp := by
    rintro s t f hf ⟨a, rfl, ha⟩
    cases hf <;> exact ⟨a, rfl, ha⟩
  command i h _ := h.exec i

/-- Settles O48: with `TOP_WRAP` = `slice` the low 18 bits are all that is seen, and differing in unseen bits alone is kept by every step. -/
theorem highAddressBitsAreNotSeen : Obligations.HighAddressBitsAreNotSeen := by
  unfold Obligations.HighAddressBitsAreNotSeen
  intro s a hslice hlow
  have h : SameButHighAddress s { s with address := a } :=
    ⟨a, rfl, hlow, fun hsilent => by rw [hslice] at hsilent; cases hsilent⟩
  obtain hu | hr := (unseen_sameButHighAddress.step h).cases
  · obtain ⟨u, v, hs, ht, b, rfl, hb⟩ := hu
    exact .inl ⟨u, b, hs, ht, hb.low⟩
  · exact .inr hr

end Sys2Proof.Machine

/-! `bitCursor` and `currentByte` outside a session (10_state.md R18, R19; 70_reset_and_hazards.md R162). -/

namespace Sys2Proof.Machine

/-- States that differ in a stale cursor and a stale byte alone: in a session they are equal. -/
def SameButStaleByte (s t : State) : Prop :=
  ∃ k b, t = { s with bitCursor := k, currentByte := b } ∧ (s.transferActive = true → k = s.bitCursor ∧ b = s.currentByte)

theorem SameButStaleByte.refl (s : State) : SameButStaleByte s s := ⟨s.bitCursor, s.currentByte, rfl, fun _ => ⟨rfl, rfl⟩⟩

/-- LA reads neither, and ends the session. -/
theorem SameButStaleByte.afterLa (n : Nibble) {s t : State} (h : SameButStaleByte s t) :
    SameButStaleByte (afterLa n s) (afterLa n t) := by
  obtain ⟨k, b, rfl, -⟩ := h
  refine ⟨k, b, ?_, fun hactive => ?_⟩
  · by_cases hk : s.loadNibbleIndex = 4
    · rw [afterLa_last n hk, afterLa_last n (by exact hk)]
      rfl
    · rw [afterLa_partial n hk, afterLa_partial n (by exact hk)]
      rfl
  · rw [afterLa_transferActive] at hactive
    cases hactive

theorem SameButStaleByte.exec (i : Instr) {s t : State} (h : SameButStaleByte s t)
    (hclk : (∃ x, i = .rdClk x) → s.transferActive = true) : Agree SameButStaleByte (exec i s) (exec i t) := by
  cases i with
  | la n => exact .next (h.afterLa n)
  | rdClk x =>
    obtain ⟨k, b, rfl, hsame⟩ := h
    obtain ⟨rfl, rfl⟩ := hsame (hclk ⟨x, rfl⟩)
    exact .next (.refl _)
  | rdStart x =>
    obtain ⟨k, b, rfl, -⟩ := h
    rw [exec_rdStart_eq, exec_rdStart_eq]
    exact .next (.refl _)
  | rdDummy x =>
    obtain ⟨k, b, rfl, hsame⟩ := h
    exact .next ⟨k, b, rfl, hsame⟩
  | ia p n => exact .refused _
  | rdIgnS x | rdIgnC x | noedge x => exact .next h

theorem unseen_sameButStaleByte : Unseen SameButStaleByte where
  refl := .refl
  control := by
    rintro s t ⟨k, b, rfl, -⟩
    exact ⟨rfl, rfl, rfl, rfl, rfl, rfl⟩
  interfaceOp := by
    rintro s t f hf ⟨k, b, rfl, hsame⟩
    cases hf <;> exact ⟨k, b, rfl, hsame⟩
  command i h hclk := h.exec i hclk

/-- Settles O47: the start pulse writes both, nothing else reads them before it, and so differing in them alone is kept by every step. -/
theorem staleCursorAndByteAreNotSeen : Obligations.StaleCursorAndByteAreNotSeen := by
  unfold Obligations.StaleCursorAndByteAreNotSeen
  intro s k b hactive
  have h : SameButStaleByte s { s with bitCursor := k, currentByte := b } :=
    ⟨k, b, rfl, fun ha => absurd ha (Bool.eq_false_iff.1 hactive)⟩
  obtain hu | hr := (unseen_sameButStaleByte.step h).cases
  · obtain ⟨u, v, hs, ht, k', b', rfl, hsame⟩ := hu
    exact .inl ⟨u, k', b', hs, ht, hsame⟩
  · exact .inr hr

end Sys2Proof.Machine

/-! The ROM's contents (00_scope.md R6; 20_memory.md R41, R51): what a listed and an unlisted offset read as, and that a canonical list is
determined by what it reads as. -/

namespace Sys2Proof.Memory

theorem readAt_cons_self (a : Nat) (b : Byte) (rest : Memory) : readAt ((a, b) :: rest) a = b := if_pos rfl

theorem readAt_cons_of_ne {a o : Nat} (h : a ≠ o) (b : Byte) (rest : Memory) : readAt ((a, b) :: rest) o = rest.readAt o := if_neg h

/-- In a canonical list no two cells have one offset. -/
theorem readAt_of_mem {m : Memory} {lo o : Nat} {b : Byte} (hm : wfFrom lo m = true) (hmem : (o, b) ∈ m) :
    lo ≤ o ∧ m.readAt o = b := by
  induction m generalizing lo with
  | nil => cases hmem
  | cons c rest ih =>
    obtain ⟨a, v⟩ := c
    obtain ⟨hlo, -, -, hrest⟩ := wfFrom_cons.1 hm
    obtain heq | htail := List.mem_cons.1 hmem
    · cases heq
      exact ⟨hlo, readAt_cons_self o b rest⟩
    · obtain ⟨hgt, hread⟩ := ih hrest htail
      exact ⟨by omega, (readAt_cons_of_ne (by omega) v rest).trans hread⟩

theorem readAt_of_not_mem {m : Memory} {o : Nat} (h : ∀ b, (o, b) ∉ m) : m.readAt o = unlisted := by
  induction m with
  | nil => rfl
  | cons c rest ih =>
    obtain ⟨a, v⟩ := c
    have hne : a ≠ o := by
      rintro rfl
      exact h v List.mem_cons_self
    rw [readAt_cons_of_ne hne]
    exact ih fun b hb => h b (List.mem_cons_of_mem _ hb)

/-- Settles O58: a canonical list reads as its cells, and programming a byte keeps it canonical. -/
theorem romReadsItsCells : Obligations.RomReadsItsCells := by
  unfold Obligations.RomReadsItsCells
  refine ⟨rfl, fun m o => ⟨fun b hm hmem => (readAt_of_mem hm hmem).2, readAt_of_not_mem, fun p b hm => ?_⟩⟩
  exact ⟨burn_keeps_wf m p b hm, read_burn m p o b hm⟩

/-- Burning one offset after the other makes a canonical list that reads as `f` below any bound. -/
theorem exists_readAt_eq (f : Nat → Byte) {n : Nat} (hn : n ≤ 0x4000) :
    ∃ m : Memory, m.wf = true ∧ ∀ o < n, m.readAt o = f o := by
  induction n with
  | zero => exact ⟨[], rfl, fun o ho => absurd ho (Nat.not_lt_zero o)⟩
  | succ n ih =>
    obtain ⟨m, hm, hread⟩ := ih (by omega)
    refine ⟨m.burnAt n (f n), burnAt_keeps_wfFrom m 0 n (f n) (Nat.zero_le n) hn hm, fun o ho => ?_⟩
    rw [readAt_burnAt m 0 n o (f n) hm]
    split
    case isTrue heq => rw [heq]
    case isFalse hne => exact hread o (by omega)

/-- A canonical list lists what does not read as unlisted. -/
theorem le_of_readAt_ne {m : Memory} {lo o : Nat} (hm : wfFrom lo m = true) (h : m.readAt o ≠ unlisted) : lo ≤ o := by
  by_contra hlt
  exact h (readAt_below hm (Nat.lt_of_not_le hlt))

/-- Of two canonical lists that read alike, neither has a first cell before the other's, and the first cells hold the same byte. -/
theorem eq_of_readAt_eq {m m' : Memory} {lo : Nat} (hm : wfFrom lo m = true) (hm' : wfFrom lo m' = true)
    (h : ∀ o < 0x4000, m.readAt o = m'.readAt o) : m = m' := by
  induction m generalizing lo m' with
  | nil =>
    cases m' with
    | nil => rfl
    | cons c' rest' =>
      obtain ⟨a', b'⟩ := c'
      obtain ⟨-, ha', hb', -⟩ := wfFrom_cons.1 hm'
      exact absurd ((h a' ha').trans (readAt_cons_self a' b' rest')).symm hb'
  | cons c rest ih =>
    obtain ⟨a, b⟩ := c
    obtain ⟨-, ha, hb, hrest⟩ := wfFrom_cons.1 hm
    have hread := (h a ha).symm.trans (readAt_cons_self a b rest)
    cases m' with
    | nil => exact absurd hread.symm hb
    | cons c' rest' =>
      obtain ⟨a', b'⟩ := c'
      obtain ⟨-, ha', hb', hrest'⟩ := wfFrom_cons.1 hm'
      have hread' := (h a' ha').trans (readAt_cons_self a' b' rest')
      have hle : a' ≤ a := le_of_readAt_ne (wfFrom_cons.2 ⟨le_rfl, ha', hb', hrest'⟩) (by rwa [hread])
      have hge : a ≤ a' := le_of_readAt_ne (wfFrom_cons.2 ⟨le_rfl, ha, hb, hrest⟩) (by rwa [hread'])
      obtain rfl : a = a' := le_antisymm hge hle
      obtain rfl : b' = b := (readAt_cons_self a b' rest').symm.trans hread
      rw [ih hrest hrest' fun o ho => ?_]
      by_cases hoa : o ≤ a
      · rw [readAt_below hrest (by omega), readAt_below hrest' (by omega)]
      · have hne : a ≠ o := by omega
        have ho' := h o ho
        rwa [readAt_cons_of_ne hne, readAt_cons_of_ne hne] at ho'

/-- Settles O59: the list is made by burning every offset, and what it reads as determines it. -/
theorem romIsAnyFunctionOfTheOffset : Obligations.RomIsAnyFunctionOfTheOffset := by
  unfold Obligations.RomIsAnyFunctionOfTheOffset
  intro f
  obtain ⟨m, hm, hread⟩ := exists_readAt_eq (fun o => f (BitVec.ofNat 14 o)) le_rfl
  have hf (o : Offset) : m.read o = f o := (hread o.toNat o.isLt).trans (congrArg f (by simp))
  refine ⟨m, ⟨hm, hf⟩, fun m' hm' hf' => eq_of_readAt_eq hm' hm fun o ho => ?_⟩
  have hsame := (hf' (BitVec.ofNat 14 o)).trans (hf (BitVec.ofNat 14 o)).symm
  have hto : (BitVec.ofNat 14 o).toNat = o := (BitVec.toNat_ofNat o 14).trans (Nat.mod_eq_of_lt ho)
  rwa [read, read, hto] at hsame

end Sys2Proof.Memory

/-! `TOP_WRAP` (93_implementation_defined.md U3; 20_memory.md R52) and the lines that are not driven (44_unsupported.md R136). -/

namespace Sys2Proof.Machine

/-- With `TOP_WRAP` = `silent` the bank compare counts below 2^18 only. -/
theorem ownsAddress_iff_of_silent {w : Nat} {c : Config} (h : c.topWrap = .silent) (a : BitVec w) :
    ownsAddress c a = true ↔ bankOf a = c.bankId ∧ a.toNat < 2 ^ 18 := by
  unfold ownsAddress
  rw [h]
  simp

/-- Settles O23: at and above 2^18 no bank compare gives ownership, below it decides alone. -/
theorem silentTopHasNoOwner : Obligations.SilentTopHasNoOwner := by
  unfold Obligations.SilentTopHasNoOwner
  refine fun s hsilent => ⟨fun htop => ?_, fun hbelow => ?_⟩
  · have hnone : ¬ownsAddress s.config s.address = true := by
      rw [ownsAddress_iff_of_silent hsilent]
      exact fun h => absurd h.2 (Nat.not_lt.2 htop)
    exact if_neg hnone
  · have hbank : ownsAddress s.config s.address = true ↔ bankOf s.address = s.config.bankId := by
      rw [ownsAddress_iff_of_silent hsilent]
      exact and_iff_left hbelow
    exact if_congr hbank rfl rfl

/-- Settles O31: the fetch of the last bit is at 0x40000, whose bank and offset are 0. -/
theorem addressGrowsPastTheTop : Obligations.AddressGrowsPastTheTop := by
  unfold Obligations.AddressGrowsPastTheTop
  intro s x hslice hk haddress
  have hnext : nextAddress s.address = 0x40000 := by rw [haddress]; rfl
  have hown : ownsAddress s.config (nextAddress s.address) = decide (s.config.bankId = 0) := by
    rw [Bool.eq_iff_iff, ownsAddress_iff_of_slice hslice, hnext, decide_eq_true_iff]
    exact eq_comm
  refine ⟨afterClk s, exec_rdClk x s, ?_, ?_, fun hbank => ?_⟩
  · rw [afterClk_address, if_pos hk, hnext]
  · rw [afterClk_eq, advanceCursor_last (by exact hk), fetch_bankOwnsBus]
    exact hown
  · rw [afterClk_eq, advanceCursor_last (by exact hk), fetch_currentByte]
    dsimp only
    rw [hown, hnext, hbank]
    rfl

/-- Settles O40: the two branches of the drive. -/
theorem onlyTheDataLineIsDriven : Obligations.OnlyTheDataLineIsDriven := by
  unfold Obligations.OnlyTheDataLineIsDriven
  exact fun s i => ⟨fun hne => if_neg hne, fun heq => if_pos heq⟩

end Sys2Proof.Machine

/-! The resolution of the bus by the number of drivers (43_bus_arbiter.md R126). -/

namespace Sys2Proof.Machine

@[simp] theorem drivenLevels_append (l r : List DataOut) : drivenLevels (l ++ r) = drivenLevels l ++ drivenLevels r :=
  List.filterMap_append

theorem drivenLevels_cons_driven (b : Bool) (r : List DataOut) : drivenLevels (.driven b :: r) = b :: drivenLevels r := rfl

theorem drivenLevels_of_released {ds : List State} (h : ∀ d ∈ ds, dataOut d = .released) : drivenLevels (ds.map dataOut) = [] := by
  refine List.filterMap_eq_nil_iff.2 fun o ho => ?_
  obtain ⟨d, hd, rfl⟩ := List.mem_map.1 ho
  rw [h d hd]

section
variable {y : System}

theorem System.bus_eq_floating (h : drivenLevels (y.devices.map dataOut) = []) : System.bus y = .floating := by
  unfold System.bus resolve
  rw [h]

theorem System.bus_eq_level {b : Bool} (h : drivenLevels (y.devices.map dataOut) = [b]) : System.bus y = .level b := by
  unfold System.bus resolve
  rw [h]

/-- Any two drivers contend, whatever the other devices do. -/
theorem System.bus_eq_contention (h : 2 ≤ (drivenLevels (y.devices.map dataOut)).length) : System.bus y = .contention := by
  unfold System.bus resolve
  split
  case h_1 hnone => rw [hnone] at h; simp at h
  case h_2 hone => rw [hone] at h; simp at h
  case h_3 => rfl

/-- The host reads `BUS_FLOAT` on a floating bus (D19). -/
theorem System.sample_of_floating (h : System.bus y = .floating) :
    (y.busFloat = .zero → System.sample y = .next (false, y)) ∧
      (y.busFloat = .one → System.sample y = .next (true, y)) ∧
      (y.busFloat = .unknown → ∃ b, System.sample y = .next (b, { y with samples := y.samples + 1 })) := by
  unfold System.sample
  rw [h]
  refine ⟨fun hf => ?_, fun hf => ?_, fun hf => ⟨Config.freeBusLevel y.samples, ?_⟩⟩ <;> rw [hf]

theorem System.sample_of_level {b : Bool} (h : System.bus y = .level b) : System.sample y = .next (b, y) := by
  unfold System.sample
  rw [h]

theorem System.sample_of_contention (h : System.bus y = .contention) : System.sample y = .fault .busContention := by
  unfold System.sample
  rw [h]

end

/-- Settles O52: none, exactly one, and any two driven levels. -/
theorem busIsResolvedByDriverCount : Obligations.BusIsResolvedByDriverCount := by
  unfold Obligations.BusIsResolvedByDriverCount
  refine fun y => ⟨fun hnone => ?_, fun l r d b hy hd hothers => ?_, fun l m r d e b c hy hd he => ?_⟩
  · have hfloat := System.bus_eq_floating (drivenLevels_of_released hnone)
    exact ⟨hfloat, System.sample_of_floating hfloat⟩
  · rw [List.forall_mem_append] at hothers
    have hlevel : System.bus y = .level b := by
      refine System.bus_eq_level ?_
      rw [hy, List.map_append, List.map_cons, drivenLevels_append, hd, drivenLevels_cons_driven,
        drivenLevels_of_released hothers.1, drivenLevels_of_released hothers.2]
      rfl
    exact ⟨hlevel, System.sample_of_level hlevel⟩
  · have hcontention : System.bus y = .contention := by
      refine System.bus_eq_contention ?_
      simp only [hy, List.map_append, List.map_cons, drivenLevels_append, hd, he, drivenLevels_cons_driven, List.length_append,
        List.length_cons]
      omega
    exact ⟨hcontention, System.sample_of_contention hcontention⟩

end Sys2Proof.Machine

/-! Devices in lockstep (43_bus_arbiter.md R125, R127, R130). -/

namespace Sys2Proof.Machine

/-- What the bus invariant says of two devices. -/
structure Lockstep (d e : State) : Prop where
  bank : d.config.bankId ≠ e.config.bankId
  protocol : SameProtocolState d e
  exclusive : NotBoth d e

/-- Of two devices with different `BANK_ID` at most one owns an address. -/
theorem not_both_own {c c' : Config} (h : c.bankId ≠ c'.bankId) (a : BitVec addrW) :
    ¬(ownsAddress c a = true ∧ ownsAddress c' a = true) := by
  rintro ⟨hc, hc'⟩
  exact h ((bankOf_of_ownsAddress hc).symm.trans (bankOf_of_ownsAddress hc'))

theorem accumulated_congr (n : Nibble) {d e : State} (haddress : d.address = e.address)
    (hindex : d.loadNibbleIndex = e.loadNibbleIndex) : accumulated n d = accumulated n e := by
  unfold accumulated
  rw [haddress, hindex]

/-- LA: the load goes on alike, and neither owns or drives. -/
theorem Lockstep.afterLa (n : Nibble) {d e : State} (h : Lockstep d e) : Lockstep (afterLa n d) (afterLa n e) := by
  obtain ⟨hbank, ⟨haddress, hindex, -, -, hcursor, hselect, -⟩, -⟩ := h
  have hacc := accumulated_congr n haddress hindex
  by_cases hk : d.loadNibbleIndex = 4
  · rw [afterLa_last n hk, afterLa_last n (hindex ▸ hk), hacc]
    exact ⟨hbank, ⟨rfl, rfl, rfl, rfl, hcursor, rfl, rfl⟩, by simp⟩
  · rw [afterLa_partial n hk, afterLa_partial n (hindex ▸ hk), hacc]
    exact ⟨hbank, ⟨rfl, congrArg (· + 1) hindex, rfl, rfl, hcursor, hselect, rfl⟩, by simp⟩

/-- RD.CLK: the line goes to the owner, and after bit 7 the ownership to the bank of the next address. -/
theorem Lockstep.afterClk {d e : State} (h : Lockstep d e) : Lockstep (afterClk d) (afterClk e) := by
  obtain ⟨hbank, ⟨haddress, hindex, hvalid, hactive, hcursor, hselect, hsel⟩, hown, -⟩ := h
  rw [afterClk_eq, afterClk_eq, advanceCursor_eq, advanceCursor_eq]
  refine ⟨hbank, ⟨?_, hindex, hvalid, hactive, congrArg (· + 1) hcursor, hselect, hsel⟩, ?_, hown⟩
  · dsimp only
    rw [hcursor, haddress]
  · dsimp only
    rw [hcursor, haddress]
    split
    · exact not_both_own hbank _
    · exact hown

/-- A command finds devices in lockstep alike and leaves them so; RD.START gives the ownership to the bank of the address and leaves the
line alone. -/
theorem Lockstep.exec (i : Instr) {d e : State} (h : Lockstep d e) : Agree Lockstep (exec i d) (exec i e) := by
  cases i with
  | la n => exact .next (h.afterLa n)
  | rdClk x => exact .next h.afterClk
  | rdStart x =>
    obtain ⟨hbank, ⟨haddress, hindex, hvalid, -, -, hselect, -⟩, -, hline⟩ := h
    rw [exec_rdStart_eq, exec_rdStart_eq, haddress]
    exact .next ⟨hbank, ⟨rfl, hindex, hvalid, rfl, rfl, hselect, rfl⟩, not_both_own hbank _, hline⟩
  | rdDummy x =>
    obtain ⟨hbank, ⟨-, -, hvalid, hactive, hcursor, hselect, hsel⟩, hexclusive⟩ := h
    exact .next ⟨hbank, ⟨rfl, rfl, hvalid, hactive, hcursor, hselect, hsel⟩, hexclusive⟩
  | ia p n => exact .refused _
  | rdIgnS x | rdIgnC x | noedge x => exact .next h

theorem Lockstep.decodeCtx_eq {d e : State} (h : Lockstep d e) : decodeCtx e = decodeCtx d := by
  obtain ⟨-, ⟨-, -, hvalid, hactive, -, -, hsel⟩, -⟩ := h
  unfold decodeCtx
  rw [hvalid, hactive, hsel]

/-- One word is one command for devices in lockstep. -/
theorem Lockstep.applyEvent (w : EventByte) {d e : State} (h : Lockstep d e) (hd : LatchesClear d) (he : LatchesClear e) :
    Agree Lockstep (applyEvent w d) (applyEvent w e) := by
  rw [applyEvent_of_clear hd, applyEvent_of_clear he, h.decodeCtx_eq]
  cases decode (decodeCtx d) w with
  | error r => exact .refused _
  | ok i => exact h.exec i

/-- The bus invariant, with what it says of two devices in one place. -/
theorem busInv_iff (y : System) :
    BusInv y ↔ (∀ d ∈ y.devices, StateInv d ∧ LatchesClear d) ∧ y.devices.Pairwise Lockstep := by
  constructor
  · rintro ⟨hdevices, hbank, hprotocol, hexclusive⟩
    exact ⟨hdevices, ((hbank.and hprotocol).and hexclusive).imp fun h => ⟨h.1.1, h.1.2, h.2⟩⟩
  · rintro ⟨hdevices, hlock⟩
    exact ⟨hdevices, hlock.imp Lockstep.bank, hlock.imp Lockstep.protocol, hlock.imp Lockstep.exclusive⟩

/-- Devices in lockstep do not contend (R127). -/
theorem resolve_of_lockstep {ds : List State} (h : ds.Pairwise Lockstep) : resolve (ds.map dataOut) ≠ .contention := by
  refine resolve_ne_contention ?_
  rw [List.pairwise_map]
  refine h.imp fun {d e} hde => ?_
  obtain ⟨-, -, -, hline⟩ := hde
  cases hd : d.lineDriven with
  | false => exact .inl (dataOut_of_released hd)
  | true => exact .inr (dataOut_of_released (Bool.eq_false_iff.2 fun he => hline ⟨hd, he⟩))

/-- Where every device answers, so does the bus's list of devices. -/
theorem applyToAll_of_next {i : Input} {f : State → State} {ds : List State} (h : ∀ d ∈ ds, applyInput i d = .next (f d)) :
    applyToAll i ds = .next (ds.map f) := by
  induction ds with
  | nil => rfl
  | cons d ds ih =>
    rw [List.forall_mem_cons] at h
    rw [applyToAll, h.1, ih h.2]
    rfl

/-- Settles O54: every device answers and keeps its invariants, every two of them go on in lockstep, and so there is no contention. -/
theorem devicesStayInLockstep : Obligations.DevicesStayInLockstep := by
  unfold Obligations.DevicesStayInLockstep
  intro y w hbus hw
  obtain ⟨hdevices, hlock⟩ := (busInv_iff y).1 hbus
  have hanswer : ∀ d ∈ y.devices, ∃ t, applyEvent w d = .next t ∧ LatchesClear t := fun d hd =>
    hostRulesNeverStop d (.event w) (hdevices d hd).2 hw
  choose! f hf hclear using hanswer
  have hdevices' : ∀ d ∈ y.devices.map f, StateInv d ∧ LatchesClear d := by
    rw [List.forall_mem_map]
    exact fun d hd => ⟨kept_stateInv.applyEvent (hdevices d hd).1 (hf d hd), hclear d hd⟩
  have hlock' : (y.devices.map f).Pairwise Lockstep := by
    rw [List.pairwise_map]
    refine hlock.imp_of_mem fun {d e} hd he hde => ?_
    have hagree := hde.applyEvent w (hdevices d hd).2 (hdevices e he).2
    rw [hf d hd, hf e he] at hagree
    cases hagree
    assumption
  have hquiet := resolve_of_lockstep hlock'
  refine ⟨{ y with devices := y.devices.map f }, ?_, (busInv_iff _).2 ⟨hdevices', hlock'⟩, hquiet⟩
  rw [System.apply, applyToAll_of_next hf]
  exact if_neg hquiet

/-- Settles O53: in the reset state all devices hold the same, and none owns the bus or drives. -/
theorem busInvariantAtReset : Obligations.BusInvariantAtReset := by
  unfold Obligations.BusInvariantAtReset
  intro cs f hdiffer hroms
  rw [busInv_iff]
  constructor
  · rw [List.forall_mem_map]
    exact fun c hc => ⟨stateInv_of_reset_values rfl rfl rfl rfl rfl rfl (hroms c hc), rfl, rfl⟩
  · rw [List.pairwise_map]
    exact hdiffer.imp fun hcd => ⟨hcd, ⟨rfl, rfl, rfl, rfl, rfl, rfl, rfl⟩, nofun, nofun⟩

/-- Settles O56: the pulse of a device that is no owner leaves the line released and counts the bit. -/
theorem unownedBankFloats : Obligations.UnownedBankFloats := by
  unfold Obligations.UnownedBankFloats
  intro y hbus hunowned
  obtain ⟨hdevices, -⟩ := hbus
  have hclocked : ∀ d ∈ y.devices, ClockedSession d := fun d hd =>
    clockedSession_of_inv (hdevices d hd).1 (hdevices d hd).2 (hunowned d hd).1
  have howner : y.devices.Pairwise fun d e => d.bankOwnsBus = false ∨ e.bankOwnsBus = false :=
    List.pairwise_of_forall_mem_list fun d hd _ _ => .inl (hunowned d hd).2
  refine ⟨_, System.apply_wordRC hclocked howner, System.bus_eq_floating (drivenLevels_of_released ?_), ?_⟩
  · rw [List.forall_mem_map]
    exact fun d hd => (afterClk_of_not_owner (hunowned d hd).2).1
  · rw [List.map_map]
    exact List.map_congr_left fun d _ => afterClk_bitCursor d

end Sys2Proof.Machine
